-- ==== Sys2Proof/Word.lean ====
section
/-! DEFINITION. The word types of the module: bytes, register words and the 64-byte granule. -/

namespace Sys2Proof

/-- One byte. -/
abbrev Byte := BitVec 8

/-- A 32-bit word. -/
abbrev W32 := BitVec 32

/-- A 64-bit word: scalar registers, counters, host registers. -/
abbrev W64 := BitVec 64

/-- A vector register, 2,048 bits (R60). -/
abbrev VWord := BitVec 2048

/-- The 64 bytes of a granule, byte 0 in bits [7:0] (R10). -/
abbrev Granule := BitVec 512

/-- The bytes in a granule (R168). -/
abbrev granuleBytes : Nat := 64

end Sys2Proof
end

