-- ==== Sys2Proof/Syntax.lean ====
section
/-! DEFINITION. The commands the module takes: one constructor of `Instr` for each row of the table of operations and
events, and the types of their operands. -/

namespace Sys2Proof

/-! ### Bundles (R62 to R81) -/

/-- The fields of a scalar operation beside its opcode (R69). -/
structure SOps where
  sd : BitVec 6
  sa : BitVec 6
  sb : BitVec 6
  imm20 : BitVec 20
  useimm : Bool
  w32 : Bool
  deriving DecidableEq, Repr

/-- The fields of a vector operation beside its opcode (R71). -/
structure VOps where
  ty : BitVec 4
  vd : BitVec 6
  va : BitVec 6
  vb : BitVec 6
  vc : BitVec 6
  pd : BitVec 4
  sa : BitVec 6
  imm20 : BitVec 20
  rnd : BitVec 2
  sat : Bool
  zero : Bool
  ctl : BitVec 26
  deriving DecidableEq, Repr

/-- The fields of a matrix operation beside its opcode (R75). -/
structure MOps where
  fmtA : BitVec 4
  fmtB : BitVec 4
  acc : BitVec 3
  ia : BitVec 2
  ib : BitVec 2
  bsel : Bool
  sa : BitVec 6
  imm20 : BitVec 20
  opt : BitVec 4
  stride : BitVec 10
  deriving DecidableEq, Repr

/-- The fields of a move operation beside its opcode (R79). -/
structure XOps where
  sdst : BitVec 6
  ssrc : BitVec 6
  slen : BitVec 6
  saux : BitVec 6
  imm20 : BitVec 20
  ctr : BitVec 12
  notify : Bool
  lenimm : Bool
  xflags : BitVec 4
  rsv : BitVec 26
  deriving DecidableEq, Repr

/-- The header of a bundle (R63). -/
structure Header where
  vs : Bool
  vv0 : Bool
  vv1 : Bool
  vm : Bool
  vx : Bool
  stop : Bool
  bhint : BitVec 2
  pselS : BitVec 5
  pselV0 : BitVec 5
  pselV1 : BitVec 5
  pselM : BitVec 5
  pselX : BitVec 5
  extTgt : BitVec 3
  extImm : BitVec 28
  deriving DecidableEq, Repr

/-- A slot operation: opcode and fields. -/
structure SOp where
  op : BitVec 8
  f : SOps
  deriving DecidableEq, Repr

structure VOp where
  op : BitVec 8
  f : VOps
  deriving DecidableEq, Repr

structure MOp where
  op : BitVec 8
  f : MOps
  deriving DecidableEq, Repr

structure XOp where
  op : BitVec 8
  f : XOps
  deriving DecidableEq, Repr

/-- A bundle (R62). -/
structure Bundle where
  h : Header
  s0 : SOp
  s1 : SOp
  v0 : VOp
  v1 : VOp
  m : MOp
  x : XOp
  deriving DecidableEq, Repr

/-- How a single operation sits in its bundle: in the second slot of its kind (S1, V1), its predicate selector, its
immediate extension, the branch hint and the stop bit (R63). -/
structure OpCtl where
  second : Bool
  psel : BitVec 5
  ext : Option (BitVec 28)
  bhint : BitVec 2
  stop : Bool
  deriving DecidableEq, Repr

/-- What the landing's circuits meet in one landing cycle beside the bundle: a parity error on a register read (R105),
a double-bit error of the fetch (R61), another hardware error (R107), the rail throttle holding mmac back in this cycle
(R133), ballast work in a flight cycle without an M operation (R134), and the last granule of the oldest mstore image
that leaves the landing (R137). -/
structure CycleIn where
  parity : Bool
  ifetch : Bool
  internal : Bool
  throttled : Bool
  ballast : Bool
  imgOut : Bool
  deriving DecidableEq, Repr

/-- A physical landing slot (R19). -/
abbrev Land := Fin 104

/-! ### Cells, units and training (R238, R276 to R285) -/

/-- A cell (R238). -/
structure Cell where
  dst : BitVec 12
  src : BitVec 12
  cls : BitVec 2
  op : BitVec 6
  ctx : BitVec 12
  gen : BitVec 4
  seq : BitVec 16
  hops : BitVec 6
  counter : BitVec 12
  len : BitVec 6
  offset : BitVec 35
  last : Bool
  poison : Bool
  bounce : Bool
  replay : Bool
  k3 : Bool
  payload : BitVec 512
  deriving DecidableEq, Repr

/-- A slot of a unit: a cell or a link slot with its type, its other header bits and its payload (R278). -/
inductive USlot where
  | cell (c : Cell)
  | link (ty : BitVec 4) (rest : BitVec 112) (payload : BitVec 512)
  deriving DecidableEq, Repr

/-- A unit as it arrives: unit fields, 32 slots, the corrected symbols of each codeword and which codewords could not be
corrected (R276, R277). -/
structure UnitIn where
  useq : BitVec 16
  ack : BitVec 16
  nak : BitVec 16
  crc : BitVec 32
  slots : List USlot
  corr : List Nat
  uncorr : List Bool
  deriving DecidableEq, Repr

/-- An identity (R285). -/
structure Ident where
  node : BitVec 12
  boardSlot : BitVec 8
  trayId : BitVec 8
  port : BitVec 8
  kind : BitVec 8
  lanes : BitVec 4
  modes : BitVec 8
  incarnation : W32
  plane : BitVec 8
  widthLimit : BitVec 8
  deriving DecidableEq, Repr

/-- A training frame (R284). -/
structure TrainFrame where
  marker : W32
  pre2 : BitVec 2
  pre1 : BitVec 2
  post1 : BitVec 2
  preset : BitVec 3
  presetValid : Bool
  rxReady : Bool
  deriving DecidableEq, Repr

/-! ### Management (R490 to R500) -/

/-- A KMD frame addressed to a port of the segment, and the requests already in the module's queue when it arrives
(R490, R491, R496). -/
structure Frame where
  dstMac : BitVec 48
  srcMac : BitVec 48
  etype : BitVec 16
  version : BitVec 8
  mtype : BitVec 8
  keyId : BitVec 8
  rsv3 : BitVec 8
  incarnation : W32
  counter : W64
  reqId : BitVec 16
  bodyLen : BitVec 16
  rsv20 : W32
  body : List Byte
  tag : BitVec 128
  queued : Nat
  deriving DecidableEq, Repr

/-! ### Inputs of the retirement, power, start and host commands -/

/-- How a memory read finds its row (R199). -/
inductive EccIn where
  | clean | correctable | uncorrectable
  deriving DecidableEq, Repr

/-- What a counter update does (R325). -/
inductive CtrOp where
  | increment | errorFlag
  deriving DecidableEq, Repr

/-- Meters of a closed power window: the mean draw in W, the energies of the open windows by context slot, overhead and
ballast in units of the energy registers (R386 to R388). -/
structure Meter where
  meanW : Nat
  slots : List Nat
  overhead : Nat
  ballast : Nat
  deriving DecidableEq, Repr

/-- What the limiters measure in a control interval (R369, R372, R375, R384, R385): the draw projected for the interval,
the window mean projected at the present setting, the currents projected for rails W and E with the highest flight issue
duty of each hall that meets its limit, the ladder steps down that bring the projection within the limits, the draw of
the last interval, the energy since the boundary in W ns, the present ballast draw, the ballast capacity, and the draw
that ballast may add within the limits of the hall rails. -/
structure LimitIn where
  drawW : Nat
  windowW : Nat
  railW : Nat
  railE : Nat
  dutyW : Nat
  dutyE : Nat
  stepsDown : Nat
  lastW : Nat
  energy : Nat
  ballastW : Nat
  capacityW : Nat
  railRoomW : Nat
  deriving DecidableEq, Repr

/-- The completion of a host read. -/
inductive HostRsp where
  | data (bytes : List Byte)
  | error
  | timeout
  deriving DecidableEq, Repr

/-- The outcome of a start phase (R424, R427, R432 to R435): the cause it failed with, whether neither copy of the defect
list was valid, whether the copy of a committed image fails to verify (R526), and what its work found bad: landings, stack channels, galleries' stores, memory rows that were spared or
repaired, and pages of rows that could be neither. -/
structure PhaseIn where
  fail : Option Nat
  defectLost : Bool
  copyBad : Bool
  badLandings : List Nat
  badChannels : List Nat
  badGalleries : List Nat
  badRows : List Nat
  badPages : List Nat
  deriving DecidableEq, Repr

/-! ### The commands -/

/-- The rows of the table, in its order: first the commands with operands, then those without. -/
inductive Instr where
  /-- BUNDLE_ISSUE (R85). -/
  | bundleIssue (l : Land) (c : CycleIn)
  /-- NOP (R64). -/
  | nop (l : Land) (c : CycleIn) (k : OpCtl)
  /-- ADD (R70). -/
  | add (l : Land) (c : CycleIn) (k : OpCtl) (f : SOps)
  /-- SUB (R70). -/
  | sub (l : Land) (c : CycleIn) (k : OpCtl) (f : SOps)
  /-- AND (R70). -/
  | and (l : Land) (c : CycleIn) (k : OpCtl) (f : SOps)
  /-- OR (R70). -/
  | or (l : Land) (c : CycleIn) (k : OpCtl) (f : SOps)
  /-- XOR (R70). -/
  | xor (l : Land) (c : CycleIn) (k : OpCtl) (f : SOps)
  /-- SHL (R70). -/
  | shl (l : Land) (c : CycleIn) (k : OpCtl) (f : SOps)
  /-- SHR (R70). -/
  | shr (l : Land) (c : CycleIn) (k : OpCtl) (f : SOps)
  /-- SAR (R70). -/
  | sar (l : Land) (c : CycleIn) (k : OpCtl) (f : SOps)
  /-- MIN (R70). -/
  | min (l : Land) (c : CycleIn) (k : OpCtl) (f : SOps)
  /-- MAX (R70). -/
  | max (l : Land) (c : CycleIn) (k : OpCtl) (f : SOps)
  /-- MINU (R70). -/
  | minu (l : Land) (c : CycleIn) (k : OpCtl) (f : SOps)
  /-- MAXU (R70). -/
  | maxu (l : Land) (c : CycleIn) (k : OpCtl) (f : SOps)
  /-- PEQ (R70). -/
  | peq (l : Land) (c : CycleIn) (k : OpCtl) (f : SOps)
  /-- PLT (R70). -/
  | plt (l : Land) (c : CycleIn) (k : OpCtl) (f : SOps)
  /-- PLTU (R70). -/
  | pltu (l : Land) (c : CycleIn) (k : OpCtl) (f : SOps)
  /-- MUL (R70). -/
  | mul (l : Land) (c : CycleIn) (k : OpCtl) (f : SOps)
  /-- MULH (R70). -/
  | mulh (l : Land) (c : CycleIn) (k : OpCtl) (f : SOps)
  /-- MULHU (R70). -/
  | mulhu (l : Land) (c : CycleIn) (k : OpCtl) (f : SOps)
  /-- DIV (R156). -/
  | div (l : Land) (c : CycleIn) (k : OpCtl) (f : SOps)
  /-- DIVU (R70). -/
  | divu (l : Land) (c : CycleIn) (k : OpCtl) (f : SOps)
  /-- REM (R156). -/
  | rem (l : Land) (c : CycleIn) (k : OpCtl) (f : SOps)
  /-- REMU (R70). -/
  | remu (l : Land) (c : CycleIn) (k : OpCtl) (f : SOps)
  /-- MOVI (R67). -/
  | movi (l : Land) (c : CycleIn) (k : OpCtl) (f : SOps)
  /-- PAND (R70). -/
  | pand (l : Land) (c : CycleIn) (k : OpCtl) (f : SOps)
  /-- POR (R70). -/
  | por (l : Land) (c : CycleIn) (k : OpCtl) (f : SOps)
  /-- PANDN (R70). -/
  | pandn (l : Land) (c : CycleIn) (k : OpCtl) (f : SOps)
  /-- LD (R70). -/
  | ld (l : Land) (c : CycleIn) (k : OpCtl) (size : BitVec 2) (f : SOps)
  /-- ST (R70). -/
  | st (l : Land) (c : CycleIn) (k : OpCtl) (size : BitVec 2) (f : SOps)
  /-- MFS (R99). -/
  | mfs (l : Land) (c : CycleIn) (k : OpCtl) (f : SOps)
  /-- MTS (R99). -/
  | mts (l : Land) (c : CycleIn) (k : OpCtl) (f : SOps)
  /-- BR (R87). -/
  | br (l : Land) (c : CycleIn) (k : OpCtl) (f : SOps)
  /-- BRR (R87). -/
  | brr (l : Land) (c : CycleIn) (k : OpCtl) (f : SOps)
  /-- CALL (R70). -/
  | call (l : Land) (c : CycleIn) (k : OpCtl) (f : SOps)
  /-- RET (R87). -/
  | ret (l : Land) (c : CycleIn) (k : OpCtl) (f : SOps)
  /-- WAIT (R96). -/
  | wait (l : Land) (c : CycleIn) (k : OpCtl) (f : SOps)
  /-- DRAIN (R98). -/
  | drain (l : Land) (c : CycleIn) (k : OpCtl) (f : SOps)
  /-- BRK (R70). -/
  | brk (l : Land) (c : CycleIn) (k : OpCtl) (f : SOps)
  /-- EXIT (R102). -/
  | exit (l : Land) (c : CycleIn) (k : OpCtl) (f : SOps)
  /-- VADD (R146). -/
  | vadd (l : Land) (c : CycleIn) (k : OpCtl) (f : VOps)
  /-- VSUB (R146). -/
  | vsub (l : Land) (c : CycleIn) (k : OpCtl) (f : VOps)
  /-- VMUL (R148). -/
  | vmul (l : Land) (c : CycleIn) (k : OpCtl) (f : VOps)
  /-- VFMA (R147). -/
  | vfma (l : Land) (c : CycleIn) (k : OpCtl) (f : VOps)
  /-- VMIN (R147). -/
  | vmin (l : Land) (c : CycleIn) (k : OpCtl) (f : VOps)
  /-- VMAX (R147). -/
  | vmax (l : Land) (c : CycleIn) (k : OpCtl) (f : VOps)
  /-- VABS (R147). -/
  | vabs (l : Land) (c : CycleIn) (k : OpCtl) (f : VOps)
  /-- VNEG (R147). -/
  | vneg (l : Land) (c : CycleIn) (k : OpCtl) (f : VOps)
  /-- VAND (R73). -/
  | vand (l : Land) (c : CycleIn) (k : OpCtl) (f : VOps)
  /-- VOR (R73). -/
  | vor (l : Land) (c : CycleIn) (k : OpCtl) (f : VOps)
  /-- VXOR (R73). -/
  | vxor (l : Land) (c : CycleIn) (k : OpCtl) (f : VOps)
  /-- VSHL (R148). -/
  | vshl (l : Land) (c : CycleIn) (k : OpCtl) (f : VOps)
  /-- VSHR (R148). -/
  | vshr (l : Land) (c : CycleIn) (k : OpCtl) (f : VOps)
  /-- VSAR (R148). -/
  | vsar (l : Land) (c : CycleIn) (k : OpCtl) (f : VOps)
  /-- VCMP (R149). -/
  | vcmp (l : Land) (c : CycleIn) (k : OpCtl) (f : VOps)
  /-- VSEL (R73). -/
  | vsel (l : Land) (c : CycleIn) (k : OpCtl) (f : VOps)
  /-- VCVT (R150). -/
  | vcvt (l : Land) (c : CycleIn) (k : OpCtl) (f : VOps)
  /-- VPERM (R151). -/
  | vperm (l : Land) (c : CycleIn) (k : OpCtl) (f : VOps)
  /-- VBCAST (R151). -/
  | vbcast (l : Land) (c : CycleIn) (k : OpCtl) (f : VOps)
  /-- VEXT (R151). -/
  | vext (l : Land) (c : CycleIn) (k : OpCtl) (f : VOps)
  /-- VINS (R151). -/
  | vins (l : Land) (c : CycleIn) (k : OpCtl) (f : VOps)
  /-- VREDADD (R153). -/
  | vredadd (l : Land) (c : CycleIn) (k : OpCtl) (f : VOps)
  /-- VREDMAX (R153). -/
  | vredmax (l : Land) (c : CycleIn) (k : OpCtl) (f : VOps)
  /-- VREDMIN (R153). -/
  | vredmin (l : Land) (c : CycleIn) (k : OpCtl) (f : VOps)
  /-- VLD (R73). -/
  | vld (l : Land) (c : CycleIn) (k : OpCtl) (f : VOps)
  /-- VST (R73). -/
  | vst (l : Land) (c : CycleIn) (k : OpCtl) (f : VOps)
  /-- VGATHER (R152). -/
  | vgather (l : Land) (c : CycleIn) (k : OpCtl) (f : VOps)
  /-- VSCATTER (R152). -/
  | vscatter (l : Land) (c : CycleIn) (k : OpCtl) (f : VOps)
  /-- VSFU (R154). -/
  | vsfu (l : Land) (c : CycleIn) (k : OpCtl) (f : VOps)
  /-- VRNG (R158). -/
  | vrng (l : Land) (c : CycleIn) (k : OpCtl) (f : VOps)
  /-- MLOAD (R119). -/
  | mload (l : Land) (c : CycleIn) (k : OpCtl) (f : MOps)
  /-- MMAC (R124). -/
  | mmac (l : Land) (c : CycleIn) (k : OpCtl) (f : MOps)
  /-- MZERO (R128). -/
  | mzero (l : Land) (c : CycleIn) (k : OpCtl) (f : MOps)
  /-- MSTORE (R136). -/
  | mstore (l : Land) (c : CycleIn) (k : OpCtl) (f : MOps)
  /-- XCOPY (R186). -/
  | xcopy (l : Land) (c : CycleIn) (k : OpCtl) (f : XOps)
  /-- XFILL (R186). -/
  | xfill (l : Land) (c : CycleIn) (k : OpCtl) (f : XOps)
  /-- XUNPACK (R193). -/
  | xunpack (l : Land) (c : CycleIn) (k : OpCtl) (f : XOps)
  /-- XSTREAM (R188). -/
  | xstream (l : Land) (c : CycleIn) (k : OpCtl) (f : XOps)
  /-- XNIC (R322). -/
  | xnic (l : Land) (c : CycleIn) (k : OpCtl) (f : XOps)
  /-- XTRIG (R329). -/
  | xtrig (l : Land) (c : CycleIn) (k : OpCtl) (f : XOps)
  /-- XTOPK (R160). -/
  | xtopk (l : Land) (c : CycleIn) (k : OpCtl) (f : XOps)
  /-- XCTR (R80). -/
  | xctr (l : Land) (c : CycleIn) (k : OpCtl) (f : XOps)
  /-- TRACKER_RETIRE (R92). -/
  | trackerRetire (l : Land) (id : Nat)
  /-- TRACKER_TIMEOUT (R94). -/
  | trackerTimeout (l : Land) (id : Nat)
  /-- WAIT_TIMEOUT (R96). -/
  | waitTimeout (l : Land)
  /-- WATCHDOG (R106). -/
  | watchdog (l : Land)
  /-- KERNEL_COMPLETE (R102). -/
  | kernelComplete (slot : Fin 32) (ring : Fin 8) (energy : Nat)
  /-- STREAM_JOB_START (R187). -/
  | streamJobStart (g : Fin 12) (unit : Fin 2)
  /-- UNPACK_JOB_START (R192). -/
  | unpackJobStart (hall : Fin 2) (engine : Fin 8)
  /-- TOPK_JOB_START (R163). -/
  | topkJobStart (g : Fin 12)
  /-- PATROL_SCRUB (R203). -/
  | patrolScrub (pa : Nat) (e : EccIn)
  /-- ROW_SPARE_DONE (R200). -/
  | rowSpareDone (bank row : Nat)
  /-- POWER_DOWN_ENTRY (R205). -/
  | powerDownEntry (chan : Nat)
  /-- SELF_REFRESH_ENTRY (R205). -/
  | selfRefreshEntry (chan : Nat)
  /-- SELF_REFRESH_EXIT (R205). -/
  | selfRefreshExit (chan : Nat)
  /-- STORE_GATE (R206). -/
  | storeGate (store : Nat)
  /-- STORE_WAKE (R207). -/
  | storeWake (store : Nat)
  /-- XLT_INV (R211). -/
  | xltInv (v : W32)
  /-- XLT_ROOT_WRITE (R213). -/
  | xltRootWrite (slot : Fin 32) (v : W64)
  /-- TIME_SYNC (R33). -/
  | timeSync (port : Fin 6) (c : Cell)
  /-- TIME_REQ (R32). -/
  | timeReq (port : Fin 6)
  /-- TIME_PORT_REJECT (R34). -/
  | timePortReject (port : Fin 6)
  /-- ACCEPT_BACKWARD_STEP (R38). -/
  | acceptBackwardStep (f : Frame)
  /-- POWER_WINDOW_BOUNDARY (R51). -/
  | powerWindowBoundary (m : Meter)
  /-- TELEMETRY_PERIOD (R506). -/
  | telemetryPeriod (meanW : Nat)
  /-- LOW_WORD_READ (R56). -/
  | lowWordRead (off : Nat) (wide : Bool)
  /-- WRITE (R240). -/
  | write (c : Cell)
  /-- WRITE_C (R240). -/
  | writeC (c : Cell)
  /-- WRITE_PART (R240). -/
  | writePart (c : Cell)
  /-- WRITE_PART_C (R240). -/
  | writePartC (c : Cell)
  /-- NOTIFY (R240). -/
  | notify (c : Cell)
  /-- GET_REQ (R240). -/
  | getReq (c : Cell)
  /-- GET_RSP (R259). -/
  | getRsp (c : Cell)
  /-- ATOMIC_REQ (R323). -/
  | atomicReq (c : Cell)
  /-- ATOMIC_RSP (R259). -/
  | atomicRsp (c : Cell)
  /-- ACK (R244). -/
  | ack (c : Cell)
  /-- BOUNCE_NOTICE (R254). -/
  | bounceNotice (c : Cell)
  /-- COLL_DATA (R346). -/
  | collData (c : Cell)
  /-- COLL_HDR (R351). -/
  | collHdr (c : Cell)
  /-- FINISH (R354). -/
  | finish (c : Cell)
  /-- DONE (R354). -/
  | doneMsg (c : Cell)
  /-- ABORT (R355). -/
  | abortMsg (c : Cell)
  /-- OVERFLOW (R353). -/
  | overflow (c : Cell)
  /-- DIGEST (R485). -/
  | digest (c : Cell)
  /-- MGMT (R240). -/
  | mgmt (c : Cell)
  /-- DEPART (R256). -/
  | depart (port : Fin 16) (c : Cell)
  /-- COUNTER_UPDATE (R328). -/
  | counterUpdate (ctr : BitVec 12) (ctx : BitVec 16) (o : CtrOp)
  /-- PUT (R319). -/
  | put (ue : Option Nat)
  /-- BCAST (R348). -/
  | bcast (ue : Option Nat)
  /-- REDUCE (R349). -/
  | reduce (ue : Option Nat)
  /-- EXCHANGE (R351). -/
  | exchange (ue : Option Nat)
  /-- CONTRIB (R345). -/
  | contrib (ue : Option Nat)
  /-- ACK_DELAY (R244). -/
  | ackDelay (src : BitVec 12) (ctx : BitVec 12) (gen : BitVec 4) (cls : BitVec 2)
  /-- ITEM_TIMEOUT (R333). -/
  | itemTimeout (dst : BitVec 12) (ctx : BitVec 12) (gen : BitVec 4) (seq : BitVec 16)
  /-- K3_RESEND (R297). -/
  | k3Resend (dst : BitVec 12) (ctx : BitVec 12) (gen : BitVec 4) (seq : BitVec 16)
  /-- FLOW_FORGET (R242). -/
  | flowForget (dst : BitVec 12) (ctx : BitVec 12) (gen : BitVec 4)
  /-- EARLY_FULL_RETRY (R347). -/
  | earlyFullRetry (dst : BitVec 12) (ctx : BitVec 12) (gen : BitVec 4) (seq : BitVec 16)
  /-- COLL_DONE_TIMEOUT (R354). -/
  | collDoneTimeout (ctx : BitVec 16) (group : BitVec 12) (num : BitVec 8)
  /-- CQ_ROOM (R337). -/
  | cqRoom (slot : Fin 32)
  /-- UNIT_RECEIVE (R288). -/
  | unitReceive (port : Fin 16) (u : UnitIn)
  /-- UNIT_TRANSMIT (R289). -/
  | unitTransmit (port : Fin 16)
  /-- IDENT (R286). -/
  | ident (port : Fin 16) (payload : BitVec 512)
  /-- RETRAIN_REQ (R291). -/
  | retrainReq (port : Fin 16) (cause : Byte)
  /-- CREDIT (R295). -/
  | credit (port : Fin 16) (n : BitVec 16)
  /-- TRAINING_FRAME (R284). -/
  | trainingFrame (port : Fin 16) (lane : Fin 4) (t : TrainFrame)
  /-- PORT_SIGNAL_DETECT (R282). -/
  | portSignalDetect (port : Fin 16) (lanes : BitVec 4)
  /-- LANE_READY (R284). -/
  | laneReady (port : Fin 16) (lane : Fin 4)
  /-- EQUALIZE_TIMEOUT (R282). -/
  | equalizeTimeout (port : Fin 16)
  /-- ALIGN_TIMEOUT (R282). -/
  | alignTimeout (port : Fin 16)
  /-- IDENTIFY_TIMEOUT (R282). -/
  | identifyTimeout (port : Fin 16)
  /-- RETRAIN_TIMEOUT (R282). -/
  | retrainTimeout (port : Fin 16)
  /-- DRAIN_END (R292). -/
  | drainEnd (port : Fin 16)
  /-- LANE_LOSS (R291). -/
  | laneLoss (port : Fin 16) (lanes : BitVec 4)
  /-- FEC_LIMIT (R291). -/
  | fecLimit (port : Fin 16) (lane : Fin 4)
  /-- RETRY_LIMIT (R291). -/
  | retryLimit (port : Fin 16)
  /-- ACK_TIMEOUT (R289). -/
  | ackTimeout (port : Fin 16)
  /-- FREQ_MISMATCH (R280). -/
  | freqMismatch (port : Fin 16)
  /-- EXP_CLAIM (R303). -/
  | expClaim (port : Fin 16)
  /-- EXP_HOLDOFF_EXPIRY (R305). -/
  | expHoldoffExpiry (port : Fin 16)
  /-- PORT_RETRAIN (R313). -/
  | portRetrain (f : Frame)
  /-- LANE_UNRETIRE (R293). -/
  | laneUnretire (f : Frame)
  /-- PORT_ENABLE (R282). -/
  | portEnable (f : Frame)
  /-- INPUT_SAMPLE (R363). -/
  | inputSample (mv heldUs : Nat)
  /-- INPUT_MARGINAL (R363). -/
  | inputMarginal (on : Bool)
  /-- EN_MEM (R365). -/
  | enMem (level : Bool) (heldUs : Nat)
  /-- EN_MAIN (R365). -/
  | enMain (level : Bool) (heldUs : Nat)
  /-- RAIL_REGULATED (R365). -/
  | railRegulated (main : Bool)
  /-- RAIL_TIMEOUT (R365). -/
  | railTimeout (rail : Nat)
  /-- LIMITER_INTERVAL (R369). -/
  | limiterInterval (x : LimitIn)
  /-- RAIL_VOLTAGE_REACHED (R367). -/
  | railVoltageReached (hall : Fin 2)
  /-- PWR_BRAKE_N (R378). -/
  | pwrBrakeN (level : Bool) (heldNs : Nat)
  /-- DROOP (R376). -/
  | droop (g : Fin 12) (mv : Nat)
  /-- DROOP_RELEASE (R376). -/
  | droopRelease (g : Fin 12) (cycles : Nat)
  /-- JUNCTION_SAMPLE (R391). -/
  | junctionSample (sensor : Nat) (deciC : Option Int)
  /-- SELF_THROTTLE_STEP (R390). -/
  | selfThrottleStep (g : Fin 12)
  /-- COOLANT_SAMPLE (R389). -/
  | coolantSample (inlet outlet : Option Int)
  /-- COOLANT_HOT (R392). -/
  | coolantHot (on : Bool)
  /-- FLOW_PULSE_EDGE (R394). -/
  | flowPulseEdge (sinceUs : Nat)
  /-- LEAK_SAMPLE (R396). -/
  | leakSample (mv : Nat)
  /-- HEAT_BALANCE_CHECK (R398). -/
  | heatBalanceCheck (meanW : Nat) (inlet outlet : Int)
  /-- JUNCTION_STATIC_CHECK (R398). -/
  | junctionStaticCheck (g : Fin 12) (rise : Int)
  /-- SENSING_CLEAR (R399). -/
  | sensingClear (f : Frame)
  /-- PWR_CAP (R402). -/
  | pwrCap (v : W32)
  /-- PWR_FF (R402). -/
  | pwrFf (v : W32)
  /-- PPL_W (R373). -/
  | pplW (f : Frame)
  /-- FF_MHZ (R379). -/
  | ffMhz (f : Frame)
  /-- POR_RELEASE (R419). -/
  | porRelease (locked : Bool)
  /-- REFCLK_LOCK_RETRY (R420). -/
  | refclkLockRetry (locked : Bool)
  /-- SYS_RST_N (R410). -/
  | sysRstN (level : Bool) (heldNs : Nat)
  /-- PERST_N (R533). -/
  | perstN (level : Bool) (heldNs : Nat)
  /-- START_PHASE_DONE (R424). -/
  | startPhaseDone (x : PhaseIn)
  /-- CORE_RESET_DONE (R421). -/
  | coreResetDone (bad : List Nat)
  /-- RESET_SYSTEM (R414). -/
  | resetSystem (f : Frame)
  /-- RESET_CORE (R421). -/
  | resetCore (f : Frame)
  /-- SCRUB_CONTEXT (R456). -/
  | scrubContext (f : Frame)
  /-- HIF_CTX_SCRUB (R541). -/
  | hifCtxScrub (v : W32)
  /-- ADMIT (R464). -/
  | admitModule (f : Frame)
  /-- PORT_ADMIT (R465). -/
  | portAdmit (f : Frame)
  /-- ROUTE_TABLE (R248). -/
  | routeTable (f : Frame)
  /-- ROUTE_PATCH (R248). -/
  | routePatch (f : Frame)
  /-- ILV_APPLY (R178). -/
  | ilvApply (f : Frame)
  /-- DEFECT_REMOVE (R431). -/
  | defectRemove (f : Frame)
  /-- OOS_CLEAR (R453). -/
  | oosClear (f : Frame)
  /-- QUIESCE_REQUEST (R509). -/
  | quiesceRequest (f : Frame)
  /-- MAINT_REQUEST (R509). -/
  | maintRequest (f : Frame)
  /-- RESUME_REQUEST (R509). -/
  | resumeRequest (f : Frame)
  /-- HEALTH_CONFIRM (R528). -/
  | healthConfirm (f : Frame)
  /-- LS_START (R484). -/
  | lsStart (f : Frame)
  /-- LS_STOP (R485). -/
  | lsStop (f : Frame)
  /-- KMD_READ (R497). -/
  | kmdRead (f : Frame)
  /-- KMD_WRITE (R17). -/
  | kmdWrite (f : Frame)
  /-- READ_BLOCK (R499). -/
  | readBlock (f : Frame)
  /-- WRITE_BLOCK (R499). -/
  | writeBlock (f : Frame)
  /-- HEARTBEAT (R502). -/
  | heartbeat (f : Frame)
  /-- READ_ID (R523). -/
  | readId (addr : W32)
  /-- READ_STATUS (R525). -/
  | readStatus (addr : W32)
  /-- READ (R523). -/
  | readFlash (addr : W32) (len : Nat)
  /-- STAGE_ERASE (R523). -/
  | stageErase (addr : W32) (data : List Byte)
  /-- STAGE_PROGRAM (R523). -/
  | stageProgram (addr : W32) (data : List Byte)
  /-- STAGE_COMMIT (R520). -/
  | stageCommit (addr : W32) (data : List Byte)
  /-- KEY_WRITE (R523). -/
  | keyWrite (addr : W32) (data : List Byte)
  /-- KEY_ERASE (R524). -/
  | keyErase (addr : W32) (data : List Byte)
  /-- SERVICE_COMMAND_DONE (R524). -/
  | serviceCommandDone (failed : Bool)
  /-- EXTEST (R575). -/
  | extest (shift : Option (BitVec 28))
  /-- SAMPLE_PRELOAD (R575). -/
  | samplePreload (shift : Option (BitVec 28))
  /-- BYPASS (R576). -/
  | bypass (code : Byte)
  /-- TRST_N (R575). -/
  | trstN (level : Bool)
  /-- DOORBELL (R543). -/
  | doorbell (off : Nat) (bytes : Nat) (v : W32)
  /-- LAUNCH_FETCH_DONE (R545). -/
  | launchFetchDone (slot : Fin 32) (ring : Fin 8) (r : HostRsp)
  /-- KERNEL_START (R546). -/
  | kernelStart (slot : Fin 32) (ring : Fin 8)
  /-- DMA_TO_MODULE (R548). -/
  | dmaToModule (slot : Fin 32) (ring : Fin 8) (r : HostRsp)
  /-- DMA_TO_HOST (R548). -/
  | dmaToHost (slot : Fin 32) (ring : Fin 8)
  /-- MARKER (R546). -/
  | marker (slot : Fin 32) (ring : Fin 8)
  /-- DMA_COMPLETE (R548). -/
  | dmaComplete (slot : Fin 32) (ring : Fin 8)
  /-- HOST_COMPLETION_TIMEOUT (R532). -/
  | hostCompletionTimeout (slot : Fin 32) (ring : Fin 8)
  /-- BAR2_WRITE (R537). -/
  | bar2Write (off : Nat) (data : List Byte) (en : List Bool) (ep : Bool)
  /-- BAR2_READ (R537). -/
  | bar2Read (off len : Nat)
  /-- LQ_CFG_WRITE (R542). -/
  | lqCfgWrite (slot : Fin 32) (ring : Fin 8) (v : W32)
  /-- CTX_CFG_WRITE (R358). -/
  | ctxCfgWrite (slot : Fin 32) (word : Fin 4) (v : W64)
  /-- CTR_WRITE (R360). -/
  | ctrWrite (ctr : BitVec 12) (v : W64)
  /-- D3HOT (R546). -/
  | d3hot (enter : Bool)
  /-- REGISTER_WRITE (R11). -/
  | registerWrite (off : Nat) (wide : Bool) (v : W64)
  /-- LANE_LOCK (R284). -/
  | laneLock (port : Fin 16) (lane : Fin 4)
  /-- BAR0_BAD_ACCESS (R535). -/
  | bar0BadAccess (off size : Nat) (isRead : Bool)
  /-- PCIE_LINK_CHANGE (R533). -/
  | pcieLinkChange (up : Bool) (speed : BitVec 4) (width : BitVec 5) (flit : Bool)
  /-- XLT_INV_DONE (R185). -/
  | xltInvDone
  /-- COMBINED_ESTIMATE (R34). -/
  | combinedEstimate
  /-- ESTIMATE_TIMEOUT (R37). -/
  | estimateTimeout
  /-- HOLDOVER_LIMIT (R37). -/
  | holdoverLimit
  /-- EXPRESS_BOUND_WITHDRAW (R40). -/
  | expressBoundWithdraw
  /-- RT_PULSE_EDGE (R42). -/
  | rtPulseEdge
  /-- RT_PULSE_ABSENT (R43). -/
  | rtPulseAbsent
  /-- EXPRESS_WINDOW_BOUNDARY (R262). -/
  | expressWindowBoundary
  /-- DEADLINE_REACHED (R356). -/
  | deadlineReached
  /-- CELL_ROUTE (R249). -/
  | cellRoute
  /-- GET (R320). -/
  | get
  /-- ATOMIC (R323). -/
  | atomic
  /-- NOTIFY_DESCRIPTOR (R318). -/
  | notifyDescriptor
  /-- REPRO_ATOMIC_HOLD (R478). -/
  | reproAtomicHold
  /-- LS_PARTNER_ABSENT (R485). -/
  | lsPartnerAbsent
  /-- SUPPLY_FAULT (R366). -/
  | supplyFault
  /-- FLOW_LOST (R395). -/
  | flowLost
  /-- FLOW_RESTORED (R394). -/
  | flowRestored
  /-- LEAK_WET (R397). -/
  | leakWet
  /-- LEAK_LOOP_FAULT (R397). -/
  | leakLoopFault
  /-- LEAK_DRY (R397). -/
  | leakDry
  /-- POWER_ON_RESET (R410). -/
  | powerOnReset
  /-- REFCLK_LOSS (R572). -/
  | refclkLoss
  /-- REFCLK_RESTORED (R572). -/
  | refclkRestored
  /-- WITHDRAW_END (R454). -/
  | withdrawEnd
  /-- FUNCTION_LEVEL_RESET (R533). -/
  | functionLevelReset
  /-- HMP_WATCHDOG (R411). -/
  | hmpWatchdog
  /-- START_TIMEOUT (R440). -/
  | startTimeout
  /-- PRSNT_SEATED (R570). -/
  | prsntSeated
  /-- PRSNT_RELEASE (R461). -/
  | prsntRelease
  /-- PRSNT_RETURN (R462). -/
  | prsntReturn
  /-- SCRUB_COMPLETE (R456). -/
  | scrubComplete
  /-- ZERO_FILL_DONE (R459). -/
  | zeroFillDone
  /-- QUIESCE_COMPLETE (R509). -/
  | quiesceComplete
  /-- QUIESCE_TIMEOUT (R509). -/
  | quiesceTimeout
  /-- TRIAL_EXPIRY (R527). -/
  | trialExpiry
  /-- WRITE_BLOCK_TIMEOUT (R499). -/
  | writeBlockTimeout
  /-- MGMT_LOST (R467). -/
  | mgmtLost
  /-- LOST_CAP_APPLY (R467). -/
  | lostCapApply
  /-- EVENT_RESEND (R504). -/
  | eventResend
  /-- IDCODE (R575). -/
  | idcode
  /-- AON_STATUS (R576). -/
  | aonStatus
  /-- AON_SUPPLY_LOSS (R366). -/
  | aonSupplyLoss
  /-- EN_MAIN_ACTED_ON (R364). -/
  | enMainActedOn
  deriving DecidableEq, Repr

end Sys2Proof
end

