-- ==== Sys2Proof/Machine/Bits.lean ====
section
/-! DEFINITION. Bit fields, sign extension, byte order and vector lanes. -/

namespace Sys2Proof.Machine

/-- Bits [hi:lo] of a word, as a number. -/
def fieldN {w : Nat} (x : BitVec w) (hi lo : Nat) : Nat := (x.extractLsb' lo (hi + 1 - lo)).toNat

/-- Bit `i` of a word. -/
def bitOf {w : Nat} (x : BitVec w) (i : Nat) : Bool := x.getLsbD i

/-- The word with bits [lo + n - 1 : lo] replaced by the low `n` bits of `v`. -/
def setField {w : Nat} (x : BitVec w) (lo n : Nat) (v : Nat) : BitVec w :=
  let mask : BitVec w := BitVec.ofNat w ((2 ^ n - 1) * 2 ^ lo)
  (x &&& ~~~mask) ||| (BitVec.ofNat w (v % 2 ^ n * 2 ^ lo))

/-- A Bool as a number. -/
def b2n (b : Bool) : Nat := if b then 1 else 0

/-- The signed value of the low `w` bits of a number. -/
def sOf (w : Nat) (x : Nat) : Int := (BitVec.ofNat w x).toInt

/-- The low `w` bits of an integer, as a number. -/
def uOf (w : Nat) (x : Int) : Nat := (BitVec.ofInt w x).toNat

/-- Byte `i` of a word, byte 0 lowest (R10). -/
def byteOf {w : Nat} (x : BitVec w) (i : Nat) : Byte := x.extractLsb' (8 * i) 8

/-- The number whose little-endian bytes are given (R10). -/
def leNat : List Byte → Nat
  | [] => 0
  | b :: t => b.toNat + 256 * leNat t

/-- The `n` little-endian bytes of a number (R10). -/
def leBytes : Nat → Nat → List Byte
  | 0, _ => []
  | n + 1, x => BitVec.ofNat 8 x :: leBytes n (x / 256)

/-- The number whose bytes are given, the first most significant. -/
def beNat (l : List Byte) : Nat := leNat l.reverse

/-- The `n` bytes of a number, the most significant first. -/
def beBytes (n x : Nat) : List Byte := (leBytes n x).reverse

/-- Element `i` of a vector register with `w`-bit elements (R60, R72). -/
def vElem (w : Nat) (v : VWord) (i : Nat) : Nat := v.toNat / 2 ^ (w * i) % 2 ^ w

/-- A word from `w`-bit elements, element 0 lowest. -/
def packElems (w : Nat) : List Nat → Nat
  | [] => 0
  | x :: t => x % 2 ^ w + 2 ^ w * packElems w t

/-- A vector register from its elements. -/
def vOfElems (w : Nat) (l : List Nat) : VWord := BitVec.ofNat 2048 (packElems w l)

/-- A list with element `i` replaced by `f` of it, elements beyond the end left out. -/
def listModify {α : Type} (l : List α) (i : Nat) (f : α → α) : List α := l.modify i f

/-- Ceiling of a division. -/
def ceilDiv (a b : Nat) : Nat := (a + b - 1) / b

/-- `x` rounded down to a multiple of `n`. -/
def alignDown (x n : Nat) : Nat := x / n * n

/-- `x` is a multiple of `n`. -/
def aligned (x n : Nat) : Bool := x % n == 0

/-- Smaller of two numbers. -/
def satAdd (bound x y : Nat) : Nat := if bound < x + y then bound else x + y

/-- Ones in a word, over its low `n` bits. -/
def popCount {w : Nat} (x : BitVec w) (n : Nat) : Nat :=
  ((List.range n).filter (fun i => x.getLsbD i)).length

/-- The list with an element appended. -/
def snoc {α : Type} (l : List α) (x : α) : List α := l ++ [x]

end Sys2Proof.Machine
end

