-- ==== Sys2Proof/Machine/Crypto.lean ====
section
/-! DEFINITION. The hashes, tags and check sums the spec names: SHA-256 and HMAC-SHA-256 (R493), SHA-384 (R519),
CRC-32 (R31, R276) and CRC-64/XZ (R482). -/

namespace Sys2Proof.Machine

/-- Round constants of SHA-256 (FIPS 180-4). -/
def sha256K : List Nat :=
  [0x428A2F98, 0x71374491, 0xB5C0FBCF, 0xE9B5DBA5, 0x3956C25B, 0x59F111F1, 0x923F82A4, 0xAB1C5ED5] ++
  [0xD807AA98, 0x12835B01, 0x243185BE, 0x550C7DC3, 0x72BE5D74, 0x80DEB1FE, 0x9BDC06A7, 0xC19BF174] ++
  [0xE49B69C1, 0xEFBE4786, 0x0FC19DC6, 0x240CA1CC, 0x2DE92C6F, 0x4A7484AA, 0x5CB0A9DC, 0x76F988DA] ++
  [0x983E5152, 0xA831C66D, 0xB00327C8, 0xBF597FC7, 0xC6E00BF3, 0xD5A79147, 0x06CA6351, 0x14292967] ++
  [0x27B70A85, 0x2E1B2138, 0x4D2C6DFC, 0x53380D13, 0x650A7354, 0x766A0ABB, 0x81C2C92E, 0x92722C85] ++
  [0xA2BFE8A1, 0xA81A664B, 0xC24B8B70, 0xC76C51A3, 0xD192E819, 0xD6990624, 0xF40E3585, 0x106AA070] ++
  [0x19A4C116, 0x1E376C08, 0x2748774C, 0x34B0BCB5, 0x391C0CB3, 0x4ED8AA4A, 0x5B9CCA4F, 0x682E6FF3] ++
  [0x748F82EE, 0x78A5636F, 0x84C87814, 0x8CC70208, 0x90BEFFFA, 0xA4506CEB, 0xBEF9A3F7, 0xC67178F2]

/-- Start value of SHA-256. -/
def sha256H : List Nat :=
  [0x6A09E667, 0xBB67AE85, 0x3C6EF372, 0xA54FF53A, 0x510E527F, 0x9B05688C, 0x1F83D9AB, 0x5BE0CD19]

/-- Round constants of SHA-384. -/
def sha512K : List Nat :=
  [0x428A2F98D728AE22, 0x7137449123EF65CD, 0xB5C0FBCFEC4D3B2F, 0xE9B5DBA58189DBBC] ++
  [0x3956C25BF348B538, 0x59F111F1B605D019, 0x923F82A4AF194F9B, 0xAB1C5ED5DA6D8118] ++
  [0xD807AA98A3030242, 0x12835B0145706FBE, 0x243185BE4EE4B28C, 0x550C7DC3D5FFB4E2] ++
  [0x72BE5D74F27B896F, 0x80DEB1FE3B1696B1, 0x9BDC06A725C71235, 0xC19BF174CF692694] ++
  [0xE49B69C19EF14AD2, 0xEFBE4786384F25E3, 0x0FC19DC68B8CD5B5, 0x240CA1CC77AC9C65] ++
  [0x2DE92C6F592B0275, 0x4A7484AA6EA6E483, 0x5CB0A9DCBD41FBD4, 0x76F988DA831153B5] ++
  [0x983E5152EE66DFAB, 0xA831C66D2DB43210, 0xB00327C898FB213F, 0xBF597FC7BEEF0EE4] ++
  [0xC6E00BF33DA88FC2, 0xD5A79147930AA725, 0x06CA6351E003826F, 0x142929670A0E6E70] ++
  [0x27B70A8546D22FFC, 0x2E1B21385C26C926, 0x4D2C6DFC5AC42AED, 0x53380D139D95B3DF] ++
  [0x650A73548BAF63DE, 0x766A0ABB3C77B2A8, 0x81C2C92E47EDAEE6, 0x92722C851482353B] ++
  [0xA2BFE8A14CF10364, 0xA81A664BBC423001, 0xC24B8B70D0F89791, 0xC76C51A30654BE30] ++
  [0xD192E819D6EF5218, 0xD69906245565A910, 0xF40E35855771202A, 0x106AA07032BBD1B8] ++
  [0x19A4C116B8D2D0C8, 0x1E376C085141AB53, 0x2748774CDF8EEB99, 0x34B0BCB5E19B48A8] ++
  [0x391C0CB3C5C95A63, 0x4ED8AA4AE3418ACB, 0x5B9CCA4F7763E373, 0x682E6FF3D6B2B8A3] ++
  [0x748F82EE5DEFB2FC, 0x78A5636F43172F60, 0x84C87814A1F0AB72, 0x8CC702081A6439EC] ++
  [0x90BEFFFA23631E28, 0xA4506CEBDE82BDE9, 0xBEF9A3F7B2C67915, 0xC67178F2E372532B] ++
  [0xCA273ECEEA26619C, 0xD186B8C721C0C207, 0xEADA7DD6CDE0EB1E, 0xF57D4F7FEE6ED178] ++
  [0x06F067AA72176FBA, 0x0A637DC5A2C898A6, 0x113F9804BEF90DAE, 0x1B710B35131C471B] ++
  [0x28DB77F523047D84, 0x32CAAB7B40C72493, 0x3C9EBE0A15C9BEBC, 0x431D67C49C100D4C] ++
  [0x4CC5D4BECB3E42B6, 0x597F299CFC657E2A, 0x5FCB6FAB3AD6FAEC, 0x6C44198C4A475817]

/-- Start value of SHA-384. -/
def sha384H : List Nat :=
  [0xCBBB9D5DC1059ED8, 0x629A292A367CD507, 0x9159015A3070DD17, 0x152FECD8F70E5939] ++
  [0x67332667FFC00B31, 0x8EB44A8768581511, 0xDB0C2E0D64F98FA7, 0x47B5481DBEFA4FA4]

/-- The rotation and shift amounts of a SHA-2 function. -/
structure ShaParam where
  s0 : Nat × Nat × Nat
  s1 : Nat × Nat × Nat
  b0 : Nat × Nat × Nat
  b1 : Nat × Nat × Nat
  deriving DecidableEq, Repr

def sha256P : ShaParam := ⟨(7, 18, 3), (17, 19, 10), (2, 13, 22), (6, 11, 25)⟩

def sha512P : ShaParam := ⟨(1, 8, 7), (19, 61, 6), (28, 34, 39), (14, 18, 41)⟩

/-- Small sigma: two rotations and a shift. -/
def shaSmall {w : Nat} (r : Nat × Nat × Nat) (x : BitVec w) : BitVec w :=
  x.rotateRight r.1 ^^^ x.rotateRight r.2.1 ^^^ (x >>> r.2.2)

/-- Big sigma: three rotations. -/
def shaBig {w : Nat} (r : Nat × Nat × Nat) (x : BitVec w) : BitVec w :=
  x.rotateRight r.1 ^^^ x.rotateRight r.2.1 ^^^ x.rotateRight r.2.2

/-- The message schedule: `n` words more, over the last 16 words, newest first. -/
def shaSchedule {w : Nat} (p : ShaParam) : Nat → List (BitVec w) → List (BitVec w)
  | 0, l => l
  | n + 1, l =>
    let at_ (i : Nat) : BitVec w := l.getD i 0
    shaSchedule p n ((shaSmall p.s1 (at_ 1) + at_ 6 + shaSmall p.s0 (at_ 14) + at_ 15) :: l)

/-- One round on the eight working words. -/
def shaRound {w : Nat} (p : ShaParam) (v : List (BitVec w)) (kw : BitVec w × BitVec w) : List (BitVec w) :=
  match v with
  | [a, b, c, d, e, f, g, h] =>
    let t1 := h + shaBig p.b1 e + ((e &&& f) ^^^ (~~~e &&& g)) + kw.1 + kw.2
    let t2 := shaBig p.b0 a + ((a &&& b) ^^^ (a &&& c) ^^^ (b &&& c))
    [t1 + t2, a, b, c, d + t1, e, f, g]
  | l => l

/-- The compression of one block of 16 words. -/
def shaBlock {w : Nat} (p : ShaParam) (k : List (BitVec w)) (h : List (BitVec w)) (block : List (BitVec w)) :
    List (BitVec w) :=
  let ws := (shaSchedule p (k.length - 16) block.reverse).reverse
  (h.zipWith (· + ·)) ((k.zip ws).foldl (shaRound p) h)

/-- Big-endian words of a byte list, `n` words of `b` bytes. -/
def beWords (w b : Nat) : Nat → List Byte → List (BitVec w)
  | 0, _ => []
  | n + 1, l => BitVec.ofNat w (beNat (l.take b)) :: beWords w b n (l.drop b)

/-- The blocks of a padded message, `n` blocks of 16 words of `b` bytes. -/
def shaBlocks {w : Nat} (p : ShaParam) (k : List (BitVec w)) (b : Nat) : Nat → List (BitVec w) → List Byte →
    List (BitVec w)
  | 0, h, _ => h
  | n + 1, h, l => shaBlocks p k b n (shaBlock p k h (beWords w b 16 (l.take (16 * b)))) (l.drop (16 * b))

/-- The padding of a message of `len` bytes to whole blocks of 16 `b` bytes: a one bit, zeros, the length in bits. -/
def shaPad (b len : Nat) : List Byte :=
  let z := (16 * b - (len + 1 + 2 * b) % (16 * b)) % (16 * b)
  (0x80 : Byte) :: (List.replicate z (0 : Byte) ++ beBytes (2 * b) (8 * len))

/-- SHA-256. -/
def sha256 (msg : List Byte) : List Byte :=
  let l := msg ++ shaPad 4 msg.length
  let r := shaBlocks sha256P (sha256K.map (BitVec.ofNat 32)) 4 (l.length / 64) (sha256H.map (BitVec.ofNat 32)) l
  (r.map (fun x => beBytes 4 x.toNat)).flatten

/-- SHA-384. -/
def sha384 (msg : List Byte) : List Byte :=
  let l := msg ++ shaPad 8 msg.length
  let r := shaBlocks sha512P (sha512K.map (BitVec.ofNat 64)) 8 (l.length / 128) (sha384H.map (BitVec.ofNat 64)) l
  ((r.map (fun x => beBytes 8 x.toNat)).flatten).take 48

/-- HMAC-SHA-256 with a key of at most 64 bytes. -/
def hmacSha256 (key msg : List Byte) : List Byte :=
  let k := key ++ List.replicate (64 - key.length) (0 : Byte)
  sha256 (k.map (· ^^^ 0x5C) ++ sha256 (k.map (· ^^^ 0x36) ++ msg))

/-- One byte into a reflected CRC register of width `w`. -/
def crcByte {w : Nat} (poly : BitVec w) (r : BitVec w) (b : Byte) : BitVec w :=
  let step (x : BitVec w) : BitVec w := if x.getLsbD 0 then (x >>> 1) ^^^ poly else x >>> 1
  step (step (step (step (step (step (step (step (r ^^^ b.setWidth w))))))))

/-- CRC-32 of IEEE 802.3. -/
def crc32 (l : List Byte) : W32 := ~~~(l.foldl (crcByte 0xEDB88320) (BitVec.allOnes 32))

/-- CRC-64/XZ (R482). -/
def crc64 (l : List Byte) : W64 := ~~~(l.foldl (crcByte 0xC96C5795D7870F42) (BitVec.allOnes 64))

end Sys2Proof.Machine
end

