-- ==== Sys2Proof/Machine/Dictionary.lean ====
section
/-! DEFINITION. The rows of the object dictionary (R515): type code, access, states and default of every object. -/

namespace Sys2Proof.Machine

/-- Access of an object: never written, read and written, or written only. -/
inductive ObjAcc where
  | ro | rw | wo
  deriving DecidableEq, Repr

/-- A row of the dictionary: key (256 times the index plus the subindex), type code of R492, access, the states in
which it may be accessed (bit n for state n of R507), and its default where the spec states a number. -/
structure ObjRow where
  key : Nat
  ty : Nat
  acc : ObjAcc
  states : Nat
  dflt : Nat
  deriving DecidableEq, Repr

/-- Objects of R6. -/
def objRowsR6 : List ObjRow := [
  ⟨0x100001, 7, .ro, 0xFF, 0⟩,
  ⟨0x100002, 7, .ro, 0xFF, 0⟩,
  ⟨0x100003, 1, .ro, 0xFF, 176⟩,
  ⟨0x100004, 1, .ro, 0xFE, 0⟩]

/-- Objects of R59. -/
def objRowsR59a : List ObjRow := [
  ⟨0x300001, 1, .ro, 0xFE, 0⟩,
  ⟨0x300002, 9, .ro, 0xFE, 0⟩,
  ⟨0x300003, 3, .ro, 0xFE, 4294967295⟩,
  ⟨0x300004, 1, .ro, 0xFE, 255⟩,
  ⟨0x300005, 1, .ro, 0xFE, 0⟩,
  ⟨0x300006, 2, .ro, 0xFE, 176⟩,
  ⟨0x301001, 2, .rw, 0xFE, 100⟩,
  ⟨0x301002, 2, .rw, 0xFE, 20⟩,
  ⟨0x301003, 1, .wo, 0xFE, 0⟩,
  ⟨0x301004, 1, .rw, 0xFE, 63⟩,
  ⟨0x301005, 1, .rw, 0xFE, 1⟩,
  ⟨0x302001, 1, .ro, 0xFE, 0⟩,
  ⟨0x302002, 9, .ro, 0xFE, 0⟩,
  ⟨0x303001, 4, .ro, 0xFE, 0⟩,
  ⟨0x303002, 4, .ro, 0xFE, 0⟩,
  ⟨0x303003, 4, .ro, 0xFE, 0⟩,
  ⟨0x303004, 4, .ro, 0xFE, 0⟩,
  ⟨0x303005, 4, .ro, 0xFE, 0⟩,
  ⟨0x303006, 4, .ro, 0xFE, 0⟩,
  ⟨0x303007, 4, .ro, 0xFE, 0⟩]

/-- Objects of R59. -/
def objRowsR59b : List ObjRow := [
  ⟨0x303008, 4, .ro, 0xFE, 0⟩,
  ⟨0x303009, 4, .ro, 0xFE, 0⟩,
  ⟨0x30300A, 4, .ro, 0xFE, 0⟩]

/-- Objects of R112. -/
def objRowsR112 : List ObjRow := [
  ⟨0x605001, 1, .rw, 0xFE, 0⟩,
  ⟨0x605002, 1, .rw, 0xFE, 24⟩,
  ⟨0x605003, 4, .ro, 0xFE, 0⟩]

/-- Objects of R216. -/
def objRowsR216a : List ObjRow := [
  ⟨0x500001, 1, .ro, 0xFE, 0⟩,
  ⟨0x500002, 1, .ro, 0xFE, 0⟩,
  ⟨0x500003, 8, .ro, 0xFE, 0⟩,
  ⟨0x500004, 3, .ro, 0xFE, 0⟩,
  ⟨0x510001, 4, .rw, 0x30, 0⟩,
  ⟨0x510002, 4, .rw, 0x30, 0⟩,
  ⟨0x510003, 4, .rw, 0x30, 0⟩,
  ⟨0x510004, 4, .rw, 0x30, 0⟩,
  ⟨0x510005, 4, .rw, 0x30, 0⟩,
  ⟨0x510006, 4, .rw, 0x30, 0⟩,
  ⟨0x510007, 4, .rw, 0x30, 0⟩,
  ⟨0x510008, 4, .rw, 0x30, 0⟩,
  ⟨0x510009, 4, .rw, 0x30, 0⟩,
  ⟨0x51000A, 4, .rw, 0x30, 0⟩,
  ⟨0x51000B, 4, .rw, 0x30, 0⟩,
  ⟨0x51000C, 4, .rw, 0x30, 0⟩,
  ⟨0x51000D, 4, .rw, 0x30, 0⟩,
  ⟨0x51000E, 4, .rw, 0x30, 0⟩,
  ⟨0x51000F, 4, .rw, 0x30, 0⟩,
  ⟨0x510010, 4, .rw, 0x30, 0⟩]

/-- Objects of R216. -/
def objRowsR216b : List ObjRow := [
  ⟨0x510011, 1, .rw, 0x30, 0⟩,
  ⟨0x520001, 3, .ro, 0xFE, 0⟩,
  ⟨0x520002, 8, .ro, 0xFE, 0⟩,
  ⟨0x530001, 1, .rw, 0xFE, 1⟩,
  ⟨0x530002, 3, .rw, 0xFE, 1000⟩,
  ⟨0x530003, 2, .rw, 0xFE, 24⟩,
  ⟨0x540001, 4, .ro, 0xFE, 0⟩,
  ⟨0x540002, 4, .ro, 0xFE, 0⟩,
  ⟨0x540003, 4, .ro, 0xFE, 0⟩,
  ⟨0x540004, 4, .ro, 0xFE, 0⟩,
  ⟨0x540005, 4, .ro, 0xFE, 0⟩,
  ⟨0x540006, 4, .ro, 0xFE, 0⟩,
  ⟨0x540007, 4, .ro, 0xFE, 0⟩]

/-- Objects of R271. -/
def objRowsR271a : List ObjRow := [
  ⟨0x400001, 2, .rw, 0x02, 0⟩,
  ⟨0x400002, 1, .ro, 0xFE, 0⟩,
  ⟨0x400003, 1, .ro, 0xFE, 0⟩,
  ⟨0x420001, 8, .rw, 0x32, 0⟩,
  ⟨0x420002, 8, .rw, 0xBE, 0⟩,
  ⟨0x420003, 1, .rw, 0xFE, 8⟩,
  ⟨0x420004, 8, .rw, 0xFE, 0⟩,
  ⟨0x420005, 1, .rw, 0xFE, 3⟩,
  ⟨0x420006, 8, .rw, 0xFE, 0⟩,
  ⟨0x420007, 2, .rw, 0xFE, 256⟩,
  ⟨0x430001, 4, .ro, 0xFE, 0⟩,
  ⟨0x430002, 4, .ro, 0xFE, 0⟩,
  ⟨0x430003, 4, .ro, 0xFE, 0⟩,
  ⟨0x430004, 4, .ro, 0xFE, 0⟩,
  ⟨0x430005, 4, .ro, 0xFE, 0⟩,
  ⟨0x430006, 4, .ro, 0xFE, 0⟩,
  ⟨0x430007, 4, .ro, 0xFE, 0⟩,
  ⟨0x430008, 4, .ro, 0xFE, 0⟩,
  ⟨0x430009, 4, .ro, 0xFE, 0⟩,
  ⟨0x43000A, 4, .ro, 0xFE, 0⟩]

/-- Objects of R271. -/
def objRowsR271b : List ObjRow := [
  ⟨0x43000B, 4, .ro, 0xFE, 0⟩]

/-- Objects of R313. -/
def objRowsR313 : List ObjRow := [
  ⟨0x440001, 2, .rw, 0xBE, 65535⟩,
  ⟨0x440002, 8, .rw, 0xFE, 0⟩,
  ⟨0x440003, 2, .rw, 0xFE, 0⟩,
  ⟨0x440004, 8, .rw, 0xFE, 0⟩,
  ⟨0x440005, 1, .rw, 0xFE, 0⟩,
  ⟨0x440006, 2, .rw, 0xFE, 1000⟩,
  ⟨0x440007, 3, .rw, 0xFE, 4096⟩,
  ⟨0x440008, 3, .rw, 0xFE, 64⟩,
  ⟨0x440009, 1, .wo, 0xBE, 0⟩,
  ⟨0x44000A, 8, .ro, 0xFE, 0⟩,
  ⟨0x44000B, 2, .wo, 0x20, 0⟩,
  ⟨0x44000C, 8, .ro, 0xFE, 0⟩,
  ⟨0x44000D, 8, .ro, 0xFE, 0⟩,
  ⟨0x44000E, 4, .ro, 0xFE, 0⟩,
  ⟨0x44000F, 4, .ro, 0xFE, 0⟩,
  ⟨0x440010, 4, .ro, 0xFE, 0⟩,
  ⟨0x440011, 4, .ro, 0xFE, 0⟩,
  ⟨0x440012, 4, .ro, 0xFE, 0⟩]

/-- Objects of R362. -/
def objRowsR362 : List ObjRow := [
  ⟨0x450001, 3, .rw, 0xFE, 500⟩,
  ⟨0x450002, 1, .rw, 0xFE, 8⟩,
  ⟨0x450003, 3, .ro, 0xFE, 0⟩,
  ⟨0x450004, 2, .ro, 0xFE, 0⟩,
  ⟨0x450005, 4, .ro, 0xFE, 0⟩,
  ⟨0x450006, 4, .ro, 0xFE, 0⟩,
  ⟨0x450007, 4, .ro, 0xFE, 0⟩,
  ⟨0x450008, 4, .ro, 0xFE, 0⟩,
  ⟨0x450009, 4, .ro, 0xFE, 0⟩,
  ⟨0x45000A, 4, .ro, 0xFE, 0⟩]

/-- Objects of R407. -/
def objRowsR407a : List ObjRow := [
  ⟨0x200001, 3, .ro, 0xFE, 0⟩,
  ⟨0x200002, 3, .ro, 0xFE, 2400⟩,
  ⟨0x200003, 3, .ro, 0xFE, 131132⟩,
  ⟨0x200004, 6, .ro, 0xFE, 0⟩,
  ⟨0x200005, 1, .ro, 0xFE, 0⟩,
  ⟨0x210001, 1, .rw, 0xFE, 2⟩,
  ⟨0x210002, 2, .rw, 0xFE, 2400⟩,
  ⟨0x210003, 2, .rw, 0xFE, 1600⟩,
  ⟨0x210004, 2, .rw, 0xFE, 1600⟩,
  ⟨0x210005, 1, .rw, 0xFE, 50⟩,
  ⟨0x210006, 1, .rw, 0xFE, 60⟩,
  ⟨0x211001, 1, .rw, 0xFE, 1⟩,
  ⟨0x212001, 2, .rw, 0xFE, 0⟩,
  ⟨0x212002, 8, .ro, 0xFF, 0⟩,
  ⟨0x220001, 2, .rw, 0xFE, 0⟩,
  ⟨0x220002, 2, .rw, 0xFE, 0⟩,
  ⟨0x230001, 1, .rw, 0xFE, 95⟩,
  ⟨0x230002, 3, .rw, 0xFE, 0⟩,
  ⟨0x230003, 1, .rw, 0xFE, 0⟩,
  ⟨0x230004, 6, .ro, 0xFE, 0⟩]

/-- Objects of R407. -/
def objRowsR407b : List ObjRow := [
  ⟨0x230005, 6, .ro, 0xFE, 0⟩,
  ⟨0x230006, 6, .ro, 0xFE, 0⟩,
  ⟨0x230007, 1, .ro, 0xFE, 2⟩,
  ⟨0x240001, 1, .ro, 0xFE, 0⟩,
  ⟨0x240002, 1, .ro, 0xFE, 0⟩,
  ⟨0x240003, 1, .wo, 0xFE, 0⟩,
  ⟨0x240004, 4, .ro, 0xFE, 0⟩,
  ⟨0x710001, 8, .ro, 0xFE, 0⟩,
  ⟨0x710002, 4, .ro, 0xFE, 0⟩,
  ⟨0x710003, 4, .ro, 0xFE, 0⟩,
  ⟨0x710004, 4, .ro, 0xFE, 0⟩,
  ⟨0x710005, 4, .ro, 0xFE, 0⟩,
  ⟨0x710006, 4, .ro, 0xFE, 0⟩]

/-- Objects of R445. -/
def objRowsR445a : List ObjRow := [
  ⟨0x410001, 8, .rw, 0xBE, 0⟩,
  ⟨0x410002, 8, .ro, 0xFE, 0⟩,
  ⟨0x410003, 1, .ro, 0xFE, 0⟩,
  ⟨0x601001, 1, .rw, 0xFE, 0⟩,
  ⟨0x601002, 2, .rw, 0xFE, 600⟩,
  ⟨0x601003, 1, .rw, 0xFE, 2⟩,
  ⟨0x601004, 1, .rw, 0xFE, 0⟩,
  ⟨0x602001, 1, .wo, 0xFE, 0⟩,
  ⟨0x602002, 1, .wo, 0x3C, 0⟩,
  ⟨0x602003, 2, .wo, 0x3C, 0⟩,
  ⟨0x603001, 3, .rw, 0xFE, 1⟩,
  ⟨0x603002, 1, .ro, 0xFE, 0⟩,
  ⟨0x603003, 3, .ro, 0xFE, 0⟩,
  ⟨0x610001, 1, .ro, 0xFE, 0⟩,
  ⟨0x610002, 1, .ro, 0xFE, 0⟩,
  ⟨0x610003, 1, .ro, 0xFE, 0⟩,
  ⟨0x610004, 8, .ro, 0xFF, 0⟩,
  ⟨0x610005, 8, .ro, 0xFE, 0⟩,
  ⟨0x610006, 8, .ro, 0xFE, 0⟩,
  ⟨0x610007, 2, .ro, 0xFE, 0⟩]

/-- Objects of R445. -/
def objRowsR445b : List ObjRow := [
  ⟨0x610008, 8, .ro, 0xFE, 0⟩,
  ⟨0x610009, 2, .wo, 0x20, 0⟩,
  ⟨0x61000A, 3, .ro, 0xFE, 0⟩,
  ⟨0x61000B, 3, .ro, 0xFE, 0⟩]

/-- Objects of R471. -/
def objRowsR471 : List ObjRow := [
  ⟨0x411001, 3, .rw, 0x3E, 0⟩,
  ⟨0x411002, 3, .wo, 0x02, 0⟩,
  ⟨0x411003, 8, .wo, 0x3C, 0⟩,
  ⟨0x411004, 8, .ro, 0xFE, 0⟩,
  ⟨0x620001, 3, .ro, 0xFE, 0⟩,
  ⟨0x620002, 1, .ro, 0xFE, 0⟩,
  ⟨0x620003, 1, .ro, 0xFE, 0⟩,
  ⟨0x620004, 1, .wo, 0x80, 0⟩,
  ⟨0x620005, 1, .rw, 0xBE, 0⟩,
  ⟨0x620006, 8, .ro, 0xFE, 0⟩,
  ⟨0x620007, 8, .ro, 0xFE, 0⟩]

/-- Objects of R487. -/
def objRowsR487 : List ObjRow := [
  ⟨0x604001, 1, .rw, 0xFE, 0⟩,
  ⟨0x604002, 3, .rw, 0xFE, 4096⟩,
  ⟨0x720001, 8, .ro, 0xFE, 0⟩,
  ⟨0xA00001, 2, .rw, 0x0C, 65535⟩,
  ⟨0xA00002, 2, .rw, 0x0C, 0⟩,
  ⟨0xA00003, 9, .wo, 0x0C, 0⟩,
  ⟨0xA00004, 1, .wo, 0x0C, 0⟩,
  ⟨0xA00005, 3, .ro, 0xFE, 0⟩,
  ⟨0xA00006, 8, .ro, 0xFE, 0⟩]

/-- Objects of R516. -/
def objRowsR516a : List ObjRow := [
  ⟨0x100005, 7, .ro, 0xFF, 0⟩,
  ⟨0x100006, 1, .ro, 0xFF, 1⟩,
  ⟨0x101001, 2, .rw, 0xFE, 34997⟩,
  ⟨0x101002, 1, .ro, 0xFE, 0⟩,
  ⟨0x101003, 8, .ro, 0xFE, 0⟩,
  ⟨0x101004, 8, .ro, 0xFE, 0⟩,
  ⟨0x101005, 1, .ro, 0xFE, 0⟩,
  ⟨0x101006, 4, .ro, 0xFE, 0⟩,
  ⟨0x101007, 4, .ro, 0xFE, 0⟩,
  ⟨0x101008, 4, .ro, 0xFE, 0⟩,
  ⟨0x101009, 4, .ro, 0xFE, 0⟩,
  ⟨0x10100A, 4, .ro, 0xFE, 0⟩,
  ⟨0x102001, 9, .ro, 0xFE, 0⟩,
  ⟨0x102002, 4, .ro, 0xFE, 0⟩,
  ⟨0x102003, 4, .ro, 0xFE, 0⟩,
  ⟨0x103001, 1, .ro, 0xFE, 0⟩,
  ⟨0x103002, 8, .ro, 0xFE, 0⟩,
  ⟨0x103003, 3, .ro, 0xFE, 1⟩,
  ⟨0x103004, 4, .ro, 0xFE, 0⟩,
  ⟨0x600001, 1, .ro, 0xFE, 1⟩]

/-- Objects of R516. -/
def objRowsR516b : List ObjRow := [
  ⟨0x600002, 1, .wo, 0x3C, 0⟩,
  ⟨0x600003, 3, .rw, 0xFE, 10000⟩,
  ⟨0x600004, 1, .ro, 0xFE, 0⟩,
  ⟨0x600005, 9, .ro, 0xFE, 0⟩,
  ⟨0x700001, 1, .rw, 0xFE, 1⟩,
  ⟨0x700002, 8, .ro, 0xFE, 0⟩]

/-- Objects of R530. -/
def objRowsR530 : List ObjRow := [
  ⟨0x800001, 1, .ro, 0xFE, 0⟩,
  ⟨0x800002, 3, .ro, 0xFE, 0⟩,
  ⟨0x800003, 1, .ro, 0xFE, 0⟩,
  ⟨0x800004, 1, .ro, 0xFF, 0⟩,
  ⟨0x800005, 8, .ro, 0xFE, 0⟩,
  ⟨0x801001, 1, .ro, 0xFE, 0⟩,
  ⟨0x801002, 1, .ro, 0xFE, 0⟩,
  ⟨0x801003, 3, .ro, 0xFE, 0⟩,
  ⟨0x802001, 1, .ro, 0xFE, 0⟩,
  ⟨0x802002, 3, .ro, 0xFE, 0⟩,
  ⟨0x803001, 1, .wo, 0x3C, 0⟩,
  ⟨0x804001, 3, .ro, 0xFE, 0⟩,
  ⟨0x804002, 1, .ro, 0xFE, 0⟩,
  ⟨0x805001, 4, .ro, 0xFE, 0⟩]

/-- The dictionary. -/
def objRows : List ObjRow :=
  objRowsR6 ++ objRowsR59a ++ objRowsR59b ++ objRowsR112 ++ objRowsR216a ++ objRowsR216b ++
  objRowsR271a ++ objRowsR271b ++ objRowsR313 ++ objRowsR362 ++ objRowsR407a ++ objRowsR407b ++ objRowsR445a ++ objRowsR445b ++ objRowsR471 ++ objRowsR487 ++ objRowsR516a ++ objRowsR516b ++ objRowsR530

/-- The row of an object. -/
def objRow (key : Nat) : Option ObjRow := objRows.find? (fun r => r.key == key)

/-- The default of a scalar object. -/
def objDefault (key : Nat) : Nat := ((objRow key).map ObjRow.dflt).getD 0

/-- The index holds an object. -/
def objIndex (idx : Nat) : Bool := objRows.any (fun r => r.key / 256 == idx)

/-- Value bytes of a type (R492); 0 for STR and BLOB, whose objects state their sizes. -/
def typeBytes (ty : Nat) : Nat :=
  match ty with
  | 1 => 1 | 2 => 2 | 3 => 4 | 4 => 8 | 5 => 4 | 6 => 4 | 9 => 8 | _ => 0

end Sys2Proof.Machine
end

