-- ==== Sys2Proof/Config.lean ====
section
/-! DEFINITION. What the spec leaves open: free values, opaque constants that nothing in Lean can evaluate. Each is
named in a row of the assumption log. -/

namespace Sys2Proof.Config

/-- The inexact results of the special-function unit: which of the format values inside the error bound of R154 the
unit gives, as a pick from the list of them, by function, element type and input bits (log entry 5). -/
opaque freeSfu : Nat → Nat → Nat → Nat

/-- How long a divide takes within the bound of R70, by opcode, w32 and operands (log entry 12). -/
opaque divCycles : Nat → Bool → W64 → W64 → Nat

/-- A fresh value for a result the spec leaves open, by the number of the draw (log entry 6). -/
opaque freeValue : Nat → W64

/-- Whether an ECDSA P-384 signature verifies, by key number, digest and signature: the public keys are not in the
spec (log entry 7). -/
opaque ecdsaVerify : Nat → List Byte → List Byte → Bool

/-- Where the PRBS13 pattern of a training frame starts on a lane, which the spec does not give (log entry 89). -/
opaque prbsSeed : Nat → BitVec 13

/-- Coefficient steps from the preset at which a transmitter tap is at its limit, by tap: pre2, pre1, post1 (log entry
89). -/
opaque tapLimit : Nat → Nat

/-- The JEP106 manufacturer identity in IDCODE, which the spec names and does not number (log entry 22). -/
opaque jep106 : BitVec 11

end Sys2Proof.Config
end

