-- ==== Sys2Proof/Machine/Float.lean ====
section
/-! DEFINITION. Number formats: exact dyadic values, one rounding, and the formats of R72, R76 and R123. -/

namespace Sys2Proof.Machine

/-- An exact dyadic value `m * 2^e`. -/
structure Dy where
  m : Int
  e : Int
  deriving DecidableEq, Repr

/-- `m` shifted left by a non-negative amount. -/
def shlI (m : Int) (k : Nat) : Int := m * (2 ^ k : Nat)

/-- Two dyadic values at their smaller exponent. -/
def dyAlign (x y : Dy) : Int × Int × Int :=
  let e := min x.e y.e
  (shlI x.m (x.e - e).toNat, shlI y.m (y.e - e).toNat, e)

/-- Exact sum. -/
def dyAdd (x y : Dy) : Dy := let (a, b, e) := dyAlign x y; ⟨a + b, e⟩

/-- Exact product. -/
def dyMul (x y : Dy) : Dy := ⟨x.m * y.m, x.e + y.e⟩

/-- Exact comparison. -/
def dyLt (x y : Dy) : Bool := let (a, b, _) := dyAlign x y; decide (a < b)

/-- Equal values. -/
def dyEq (x y : Dy) : Bool := let (a, b, _) := dyAlign x y; decide (a = b)

/-- The rounding directions of the rnd field (R71). -/
inductive Rnd where
  | nearest | zero | down | up
  deriving DecidableEq, Repr

/-- The rnd field (R71). -/
def rndOf (x : BitVec 2) : Rnd :=
  if x = 0 then .nearest else if x = 1 then .zero else if x = 2 then .down else .up

/-- The magnitude `q + r / d` (with `0 ≤ r < d`) rounded to an integer in a direction, for a value of the given sign. -/
def roundQ (rnd : Rnd) (neg : Bool) (q r d : Nat) : Nat :=
  match rnd with
  | .nearest => if 2 * r < d then q else if d < 2 * r then q + 1 else if q % 2 = 0 then q else q + 1
  | .zero => q
  | .down => if neg && decide (0 < r) then q + 1 else q
  | .up => if !neg && decide (0 < r) then q + 1 else q

/-- The magnitude `a * 2^e` rounded to a format of `p` bits of precision whose smallest nonzero value is `2^qmin`, as
the format's magnitude code (exponent and fraction joined, no bound applied). -/
def roundCode (p : Nat) (qmin : Int) (rnd : Rnd) (neg : Bool) (a : Nat) (e : Int) : Nat :=
  if a = 0 then 0 else
  let q := max (e + (Nat.log2 a : Int) + 1 - p) qmin
  let n := if q ≤ e then a * 2 ^ (e - q).toNat
    else let d := 2 ^ (q - e).toNat; roundQ rnd neg (a / d) (a % d) d
  (q - qmin).toNat * 2 ^ (p - 1) + n

/-- The value of a magnitude code in a format of `p` bits of precision and smallest value `2^qmin`. -/
def codeVal (p : Nat) (qmin : Int) (c : Nat) : Dy :=
  let ex := c / 2 ^ (p - 1)
  if ex = 0 then ⟨c, qmin⟩ else ⟨(c % 2 ^ (p - 1) + 2 ^ (p - 1) : Nat), qmin + ex - 1⟩

/-- An IEEE format: total width, precision with the hidden bit, and the exponent of its smallest nonzero value. -/
structure FFmt where
  w : Nat
  p : Nat
  qmin : Int
  deriving DecidableEq, Repr

/-- Binary32 (R72). -/
def fp32 : FFmt := ⟨32, 24, -149⟩
/-- BF16 (R72). -/
def bf16 : FFmt := ⟨16, 8, -133⟩
/-- Binary16 (R72). -/
def fp16 : FFmt := ⟨16, 11, -24⟩

/-- The sign bit of a format. -/
def FFmt.sign (f : FFmt) : Nat := 2 ^ (f.w - 1)
/-- The magnitude code of infinity. -/
def FFmt.infCode (f : FFmt) : Nat := 2 ^ (f.w - 1) - 2 ^ (f.p - 1)
/-- The canonical quiet NaN (R127, R147). -/
def FFmt.nan (f : FFmt) : Nat := f.infCode + 2 ^ (f.p - 2)
/-- The largest finite magnitude code. -/
def FFmt.maxFin (f : FFmt) : Nat := f.infCode - 1

/-- A decoded float. -/
inductive FVal where
  | nan
  | inf (neg : Bool)
  | fin (neg : Bool) (m : Nat) (e : Int)
  deriving DecidableEq, Repr

/-- A float's bits decoded. -/
def FFmt.decode (f : FFmt) (x : Nat) : FVal :=
  let neg := decide (f.sign ≤ x % 2 ^ f.w)
  let c := x % f.sign
  if f.infCode < c then .nan else if c = f.infCode then .inf neg else
  let d := codeVal f.p f.qmin c
  .fin neg d.m.toNat d.e

/-- The signed value of a finite float. -/
def FVal.dy : FVal → Dy
  | .fin neg m e => ⟨if neg then -(m : Int) else m, e⟩
  | _ => ⟨0, 0⟩

/-- The bits of a signed infinity. -/
def FFmt.inf (f : FFmt) (neg : Bool) : Nat := b2n neg * f.sign + f.infCode

/-- The bits of a signed zero. -/
def FFmt.zero (f : FFmt) (neg : Bool) : Nat := b2n neg * f.sign

/-- What a magnitude beyond the largest finite value becomes in a rounding direction (IEEE 754-2019; R146). -/
def FFmt.overflow (f : FFmt) (rnd : Rnd) (neg : Bool) : Nat :=
  let toMax := match rnd with
    | .nearest => false
    | .zero => true
    | .down => !neg
    | .up => neg
  b2n neg * f.sign + (if toMax then f.maxFin else f.infCode)

/-- An exact value rounded once to a format, with what an overflow becomes. A zero value takes the sign given. -/
def FFmt.roundWith (f : FFmt) (rnd : Rnd) (ovf : Bool → Nat) (zneg : Bool) (d : Dy) : Nat :=
  if d.m = 0 then f.zero zneg else
  let neg := decide (d.m < 0)
  let c := roundCode f.p f.qmin rnd neg d.m.natAbs d.e
  if f.infCode ≤ c then ovf neg else b2n neg * f.sign + c

/-- The rounding of arithmetic: an overflow goes as the direction says (IEEE 754-2019; R146). -/
def FFmt.round (f : FFmt) (rnd : Rnd) (zneg : Bool) (d : Dy) : Nat := f.roundWith rnd (f.overflow rnd) zneg d

/-- The rounding of vcvt: an overflow gives an infinity, or the largest finite value with `sat`, in every direction
(R150). -/
def FFmt.convert (f : FFmt) (rnd : Rnd) (sat : Bool) (zneg : Bool) (d : Dy) : Nat :=
  f.roundWith rnd (fun neg => if sat then b2n neg * f.sign + f.maxFin else f.inf neg) zneg d

/-- The sign of an exact zero sum of two values with the given signs (IEEE 754-2019). -/
def zeroSign (rnd : Rnd) (a b : Bool) : Bool := if a = b then a else decide (rnd = .down)

/-- The sum of two floats, one rounding (R146). -/
def fAdd (f : FFmt) (rnd : Rnd) (x y : Nat) : Nat :=
  match f.decode x, f.decode y with
  | .nan, _ => f.nan
  | _, .nan => f.nan
  | .inf a, .inf b => if a = b then f.inf a else f.nan
  | .inf a, _ => f.inf a
  | _, .inf b => f.inf b
  | .fin a m e, .fin b n g =>
    f.round rnd (if m = 0 ∧ n = 0 then zeroSign rnd a b else decide (rnd = .down))
      (dyAdd (FVal.fin a m e).dy (FVal.fin b n g).dy)

/-- A float with its sign flipped; a NaN becomes canonical (R147). -/
def fNeg (f : FFmt) (x : Nat) : Nat :=
  match f.decode x with
  | .nan => f.nan
  | _ => (x % 2 ^ f.w + f.sign) % 2 ^ f.w

/-- A float with its sign cleared; a NaN becomes canonical (R147). -/
def fAbs (f : FFmt) (x : Nat) : Nat :=
  match f.decode x with
  | .nan => f.nan
  | _ => x % f.sign

/-- The difference of two floats (R146). -/
def fSub (f : FFmt) (rnd : Rnd) (x y : Nat) : Nat :=
  match f.decode y with
  | .nan => f.nan
  | _ => fAdd f rnd x (fNeg f y)

/-- The single-rounded value of `x * y + z` (R147). -/
def fFma (f : FFmt) (rnd : Rnd) (x y z : Nat) : Nat :=
  match f.decode x, f.decode y, f.decode z with
  | .nan, _, _ => f.nan
  | _, .nan, _ => f.nan
  | .inf _, .fin _ 0 _, _ => f.nan
  | .fin _ 0 _, .inf _, _ => f.nan
  | _, _, .nan => f.nan
  | .inf a, .inf b, c => fmaInf (a != b) c
  | .inf a, .fin b _ _, c => fmaInf (a != b) c
  | .fin a _ _, .inf b, c => fmaInf (a != b) c
  | .fin _ _ _, .fin _ _ _, .inf c => f.inf c
  | .fin a m e, .fin b n g, .fin c o h =>
    let pz := decide (m = 0) || decide (n = 0)
    f.round rnd (if pz && decide (o = 0) then zeroSign rnd (a != b) c else decide (rnd = .down))
      (dyAdd (dyMul (FVal.fin a m e).dy (FVal.fin b n g).dy) (FVal.fin c o h).dy)
where
  /-- An infinite product added to the third operand. -/
  fmaInf (neg : Bool) : FVal → Nat
    | .inf c => if c = neg then f.inf neg else f.nan
    | .nan => f.nan
    | .fin _ _ _ => f.inf neg

/-- The product of two floats (R146). -/
def fMul (f : FFmt) (rnd : Rnd) (x y : Nat) : Nat :=
  match f.decode x, f.decode y with
  | .nan, _ => f.nan
  | _, .nan => f.nan
  | .inf _, .fin _ 0 _ => f.nan
  | .fin _ 0 _, .inf _ => f.nan
  | .inf a, .inf b => f.inf (a != b)
  | .inf a, .fin b _ _ => f.inf (a != b)
  | .fin a _ _, .inf b => f.inf (a != b)
  | .fin a m e, .fin b n g =>
    f.round rnd (a != b) (dyMul (FVal.fin a m e).dy (FVal.fin b n g).dy)

/-- A float's place in the order that puts -0 below +0 (R147). -/
def fKey (f : FFmt) (x : Nat) : Int :=
  let c : Int := (x % f.sign : Nat)
  if f.sign ≤ x % 2 ^ f.w then -c - 1 else c

/-- The smaller of two floats (R147). -/
def fMin (f : FFmt) (x y : Nat) : Nat :=
  match f.decode x, f.decode y with
  | .nan, .nan => f.nan
  | .nan, _ => y
  | _, .nan => x
  | _, _ => if fKey f y < fKey f x then y else x

/-- The larger of two floats (R147). -/
def fMax (f : FFmt) (x y : Nat) : Nat :=
  match f.decode x, f.decode y with
  | .nan, .nan => f.nan
  | .nan, _ => y
  | _, .nan => x
  | _, _ => if fKey f x < fKey f y then y else x

/-- The IEEE relation of two floats: none when unordered. -/
def fCmp (f : FFmt) (x y : Nat) : Option Ordering :=
  match f.decode x, f.decode y with
  | .nan, _ => none
  | _, .nan => none
  | .inf a, .inf b => some (compare (b2n b) (b2n a))
  | .inf a, _ => some (if a then .lt else .gt)
  | _, .inf b => some (if b then .gt else .lt)
  | .fin a m e, .fin b n g =>
    let x := (FVal.fin a m e).dy
    let y := (FVal.fin b n g).dy
    some (if dyLt x y then .lt else if dyLt y x then .gt else .eq)

/-- A float converted to another float format (R150). -/
def fConv (src dst : FFmt) (rnd : Rnd) (sat : Bool) (x : Nat) : Nat :=
  match src.decode x with
  | .nan => dst.nan
  | .inf a => dst.inf a
  | .fin a m e => dst.convert rnd sat a (FVal.fin a m e).dy

/-- A finite value rounded to an integer. -/
def dyToInt (rnd : Rnd) (d : Dy) : Int :=
  if 0 ≤ d.e then shlI d.m d.e.toNat else
  let neg := decide (d.m < 0)
  let dv := 2 ^ (-d.e).toNat
  let q := roundQ rnd neg (d.m.natAbs / dv) (d.m.natAbs % dv) dv
  if neg then -(q : Int) else q

/-- An integer clamped to a range. -/
def clampI (lo hi x : Int) : Int := if x < lo then lo else if hi < x then hi else x

/-- The least value of a `w`-bit integer type. -/
def intMin (signed : Bool) (w : Nat) : Int := if signed then -((2 ^ (w - 1) : Nat) : Int) else 0

/-- The greatest value of a `w`-bit integer type. -/
def intMax (signed : Bool) (w : Nat) : Int :=
  if signed then ((2 ^ (w - 1) : Nat) : Int) - 1 else ((2 ^ w : Nat) : Int) - 1

/-- A float converted to an integer type (R150). -/
def fToInt (f : FFmt) (rnd : Rnd) (sat signed : Bool) (w : Nat) (x : Nat) : Nat :=
  let lo := intMin signed w
  let hi := intMax signed w
  uOf w (match f.decode x with
    | .nan => if sat then 0 else lo
    | .inf a => if sat then (if a then lo else hi) else lo
    | .fin a m e =>
      let v := dyToInt rnd (FVal.fin a m e).dy
      if sat then clampI lo hi v else if v < lo ∨ hi < v then lo else v)

/-- An integer converted to a float (R150). -/
def intToF (f : FFmt) (rnd : Rnd) (sat : Bool) (v : Int) : Nat := f.convert rnd sat false ⟨v, 0⟩

/-! Elements of the flight's operand formats (R123). -/

/-- A minifloat of an operand format, without infinities unless `infs`; `nans` gives the codes above which it is NaN. -/
structure MFmt where
  w : Nat
  p : Nat
  qmin : Int
  maxCode : Nat
  deriving DecidableEq, Repr

/-- E4M3 (R123). -/
def e4m3 : MFmt := ⟨8, 4, -9, 0x7E⟩
/-- E5M2 (R123). -/
def e5m2 : MFmt := ⟨8, 3, -16, 0x7B⟩
/-- E3M2 (R123). -/
def e3m2 : MFmt := ⟨6, 3, -4, 0x1F⟩
/-- E2M3 (R123). -/
def e2m3 : MFmt := ⟨6, 4, -3, 0x1F⟩
/-- E2M1 (R123). -/
def e2m1 : MFmt := ⟨4, 2, -1, 0x7⟩

/-- A minifloat element decoded: E4M3 has NaN beyond its largest code, E5M2 infinity and NaN, the others neither. -/
def MFmt.decode (f : MFmt) (x : Nat) : FVal :=
  let neg := decide (2 ^ (f.w - 1) ≤ x % 2 ^ f.w)
  let c := x % 2 ^ (f.w - 1)
  if f.maxCode < c then (if f = e5m2 ∧ c = 0x7C then .inf neg else .nan)
  else let d := codeVal f.p f.qmin c; .fin neg d.m.toNat d.e

/-- An element of a flight operand format 0x0 to 0x8, from its bits (R123). -/
def elemDecode (fmt : Nat) (x : Nat) : FVal :=
  match fmt with
  | 0 => e4m3.decode x
  | 1 => e5m2.decode x
  | 2 => e3m2.decode x
  | 3 => e2m3.decode x
  | 4 => e2m1.decode x
  | 5 => let v := sOf 8 x; .fin (decide (v < 0)) v.natAbs (-6)
  | 6 => let v := sOf 8 x; .fin (decide (v < 0)) v.natAbs 0
  | 7 => bf16.decode x
  | 8 => fp16.decode x
  | _ => .fin false 0 0

/-- The element width of a flight format in bits (R117). -/
def elemBits (fmt : Nat) : Nat :=
  match fmt with
  | 2 => 6 | 3 => 6 | 4 => 4 | 7 => 16 | 8 => 16 | 9 => 32 | _ => 8

/-- The format carries block scales (R116). -/
def hasScale (fmt : Nat) : Bool := decide (fmt ≤ 5)

end Sys2Proof.Machine
end

