-- ==== Sys2Proof/Machine/Flight.lean ====
section
/-! DEFINITION. The flight's arithmetic: operand lines, exact block sums, the one rounding into the accumulator, and the
conversion of a tile into an image (R113 to R140). -/

namespace Sys2Proof.Machine

/-- A line of an operand buffer: 512 element bits, then the lower and the upper scale byte (R115). -/
abbrev BufLine := BitVec 528

/-- An accumulator tile: element [i][j] at 32 i + j as FP32 bits; a missing element is +0 (R113). -/
abbrev Tile := List (BitVec 32)

/-- Element k of a line read in a format (R115, R116). -/
def lineElem (fmt : Nat) (ln : BufLine) (k : Nat) : FVal :=
  let w := elemBits fmt
  elemDecode fmt (ln.extractLsb' (w * k) w).toNat

/-- The lower or upper scale byte of a line (R115). -/
def lineScale (ln : BufLine) (upper : Bool) : Nat :=
  (ln.extractLsb' (if upper then 520 else 512) 8).toNat

/-- What a block contributes to an accumulator element (R124, R127). -/
inductive BlockSum where
  | nan
  | inf (neg : Bool)
  | fin (v : Dy)
  deriving DecidableEq, Repr

/-- One product of a block (R127). -/
def blockProd : FVal → FVal → BlockSum
  | .nan, _ => .nan
  | _, .nan => .nan
  | .inf a, .inf b => .inf (a != b)
  | .inf a, .fin b m _ => if m = 0 then .nan else .inf (a != b)
  | .fin a m _, .inf b => if m = 0 then .nan else .inf (a != b)
  | .fin a m e, .fin b n g => .fin (dyMul (FVal.fin a m e).dy (FVal.fin b n g).dy)

/-- Two parts of a block joined: any NaN or infinities of both signs give NaN (R127). -/
def blockJoin : BlockSum → BlockSum → BlockSum
  | .nan, _ => .nan
  | _, .nan => .nan
  | .inf a, .inf b => if a = b then .inf a else .nan
  | .inf a, .fin _ => .inf a
  | .fin _, .inf b => .inf b
  | .fin x, .fin y => .fin (dyAdd x y)

/-- The exact sum of a block's products (R124 step 1). -/
def blockSum (ps : List (FVal × FVal)) : BlockSum :=
  ps.foldl (fun s p => blockJoin s (blockProd p.1 p.2)) (.fin ⟨0, 0⟩)

/-- The block scaled by its E8M0 codes (R124 step 2); a code 0xFF makes it NaN (R127). -/
def blockScale (xa xb : Nat) : BlockSum → BlockSum
  | .nan => .nan
  | s => if xa = 255 ∨ xb = 255 then .nan else
    match s with
    | .fin d => .fin ⟨d.m, d.e + (xa : Int) + (xb : Int) - 254⟩
    | o => o

/-- The accumulator element after a block, and whether rounding took it from finite to infinite (R124 to R128). -/
def accStep (acc : BitVec 32) (b : BlockSum) : BitVec 32 × Bool :=
  let out (x : Nat) : BitVec 32 := BitVec.ofNat 32 x
  match fp32.decode acc.toNat, b with
  | .nan, _ => (out fp32.nan, false)
  | _, .nan => (out fp32.nan, false)
  | .inf a, .inf c => (if a = c then acc else out fp32.nan, false)
  | .inf _, .fin _ => (acc, false)
  | .fin _ _ _, .inf c => (out (fp32.inf c), false)
  | .fin a m e, .fin v =>
    if v.m = 0 then (acc, false) else
    let r := fp32.round .nearest false (dyAdd (FVal.fin a m e).dy v)
    (out r, decide (r % fp32.sign = fp32.infCode))

/-- A block of an mmac: the A line, the B line, the scale bytes it takes and the pairs of K positions it joins. -/
structure BlockPlan where
  fa : Nat
  fb : Nat
  bUpper : Bool
  kept : Bool
  lo : Nat
  deriving DecidableEq, Repr

/-- The blocks of an mmac in the order they enter (R78, R125, R130). -/
def blockPlans (mxfp4 sparse : Bool) (ia ib : Nat) : List BlockPlan :=
  match mxfp4, sparse with
  | false, false => [⟨ia, ib, false, false, 0⟩]
  | true, false => [⟨ia, ib, false, false, 0⟩, ⟨ia + 1, ib + 1, false, false, 0⟩]
  | false, true => [⟨ia, ib, false, true, 0⟩, ⟨ia + 1, ib, true, true, 16⟩]
  | true, true => [⟨0, ib, false, true, 0⟩, ⟨1, ib, true, true, 16⟩, ⟨2, ib + 1, false, true, 0⟩, ⟨3, ib + 1, true, true, 16⟩]

/-- The products of one block for tread (i, j) (R124, R130, R131): a dense block joins equal K positions, a sparse one
the kept elements with the A elements the metadata names. -/
def planPairs (fmtA fmtB : Nat) (p : BlockPlan) (la lb : BufLine) (md : W64) : List (FVal × FVal) :=
  if p.kept then
    (List.range 16).map (fun n =>
      let e := p.lo + n
      let pe := (md.extractLsb' (2 * e) 2).toNat
      (lineElem fmtA la (4 * (n / 2) + pe), lineElem fmtB lb e))
  else (List.range 32).map (fun k => (lineElem fmtA la k, lineElem fmtB lb k))

/-- The contribution of one block at tread (i, j). -/
def planSum (fmtA fmtB : Nat) (p : BlockPlan) (la lb : BufLine) (md : W64) : BlockSum :=
  let s := blockSum (planPairs fmtA fmtB p la lb md)
  if hasScale fmtA then blockScale (lineScale la false) (lineScale lb p.bUpper) s else s

/-- An accumulator element after all blocks of an mmac, with the NaN contributions and overflows counted (R127). -/
def treadRun (acc : BitVec 32) (bs : List BlockSum) : BitVec 32 × Nat × Nat :=
  bs.foldl (fun (a, n, o) b =>
    let (a', ov) := accStep a b
    (a', n + b2n (decide (b = .nan)), o + b2n ov)) (acc, 0, 0)

/-- The outcome of an mmac on a tile: the tile, NaN block contributions and overflows (R124 to R127). -/
def mmacTile (fmtA fmtB : Nat) (plans : List BlockPlan) (fa fb : Nat → Nat → BufLine) (md : Nat → Nat → W64)
    (t : Tile) : Tile × Nat × Nat :=
  let cells := (List.range 1024).map (fun n =>
    let i := n / 32
    let j := n % 32
    treadRun (t.getD n 0) (plans.map (fun p => planSum fmtA fmtB p (fa p.fa i) (fb p.fb j) (md p.fb j))))
  (cells.map (·.1), (cells.map (·.2.1)).sum, (cells.map (·.2.2)).sum)

/-- The legal operand pairs of an mmac, with 2:4 sparsity where it is allowed (R114). -/
def mmacPairLegal (fmtA fmtB : Nat) (sparse : Bool) : Bool :=
  if fmtA ≤ 4 ∧ fmtB ≤ 4 then true
  else decide (5 ≤ fmtA ∧ fmtA ≤ 8 ∧ fmtA = fmtB) && !sparse

/-- The buffer numbers an mmac may name (R78). -/
def mmacBufsLegal (mxfp4 sparse : Bool) (ia ib : Nat) : Bool :=
  match mxfp4, sparse with
  | false, false => true
  | true, false => decide (ia % 2 = 0 ∧ ib % 2 = 0)
  | false, true => decide (ia % 2 = 0)
  | true, true => decide (ia = 0 ∧ ib % 2 = 0)

/-- A pair is an MXFP4 pair only when both formats are 0x4 (R114). -/
def isMxfp4 (fmtA fmtB : Nat) : Bool := decide (fmtA = 4 ∧ fmtB = 4)

/-- The line bytes of a format (R117). -/
def lineBytes (fmt : Nat) : Nat := 4 * elemBits fmt

/-- The bytes of the scale area (R117). -/
def scaleBytes (fmt : Nat) (dual : Bool) : Nat := if hasScale fmt then (if dual then 64 else 32) else 0

/-- Offset of line r from the image base (R117). -/
def lineOffset (fmt stride r : Nat) : Nat := if stride = 0 then lineBytes fmt * r else 64 * stride * r

/-- Offset of the scale area from the image base (R117). -/
def scaleOffset (fmt stride : Nat) : Nat := if stride = 0 then lineBytes fmt * 32 else 2048 * stride

/-- Bytes from the base to the last byte of an image (R119, R136). -/
def imageSpan (fmt stride : Nat) (dual : Bool) : Nat :=
  if scaleBytes fmt dual = 0 then lineOffset fmt stride 31 + lineBytes fmt
  else scaleOffset fmt stride + scaleBytes fmt dual

/-- A stride too short for the line (R117). -/
def strideLegal (fmt stride : Nat) : Bool := stride = 0 || decide (lineBytes fmt ≤ 64 * stride)

/-- The bytes an image occupies, as pairs of offset and length (R117). -/
def imagePieces (fmt stride : Nat) (dual : Bool) : List (Nat × Nat) :=
  (List.range 32).map (fun r => (lineOffset fmt stride r, lineBytes fmt)) ++
    (if scaleBytes fmt dual = 0 then [] else [(scaleOffset fmt stride, scaleBytes fmt dual)])

/-- The line of a buffer that an image's bytes give (R115): `lb` the line's bytes, `sc` its scale bytes. -/
def bufLineOf (lb : List Byte) (lo up : Byte) : BufLine :=
  BitVec.ofNat 528 (leNat lb + lo.toNat * 2 ^ 512 + up.toNat * 2 ^ 520)

/-! Tile stores (R138 to R140). -/

/-- A plain output format of an mstore. -/
def plainFmt (fmt : Nat) : FFmt := if fmt = 7 then bf16 else if fmt = 8 then fp16 else fp32

/-- One element converted to a plain format (R138), with whether it counts as saturated (R140). -/
def storePlain (fmt : Nat) (sat : Bool) (x : BitVec 32) : Nat × Bool :=
  match fp32.decode x.toNat with
  | .nan => if fmt = 6 then (0, false) else if sat then (0, false) else ((plainFmt fmt).nan, false)
  | .inf neg =>
    if fmt = 6 then (uOf 8 (if neg then -128 else 127), true) else
    let f := plainFmt fmt
    if sat then (b2n neg * f.sign + f.maxFin, true) else (f.inf neg, false)
  | .fin neg m e =>
    let d := (FVal.fin neg m e).dy
    if fmt = 6 then
      let v := dyToInt .nearest d
      (uOf 8 (clampI (-128) 127 v), decide (v < -128 ∨ 127 < v))
    else
      let f := plainFmt fmt
      let r := f.round .nearest neg d
      if r % f.sign = f.infCode then (if sat then (b2n neg * f.sign + f.maxFin, true) else (r, false))
      else (r, false)

/-- The minifloat of an MX output format 0x0 to 0x4. -/
def mxFmt (fmt : Nat) : MFmt :=
  match fmt with
  | 0 => e4m3 | 1 => e5m2 | 2 => e3m2 | 3 => e2m3 | _ => e2m1

/-- emax of an MX output format (R139). -/
def mxEmax (fmt : Nat) : Int :=
  match fmt with
  | 0 => 8 | 1 => 15 | 2 => 4 | 3 => 2 | 4 => 2 | _ => 0

/-- The magnitude code of |q| rounded to the element format, before any bound, and the largest code (R139). -/
def mxRound (fmt : Nat) (neg : Bool) (a : Nat) (e : Int) : Nat × Nat :=
  if fmt = 5 then ((dyToInt .nearest ⟨a, e + 6⟩).toNat, 127)
  else let f := mxFmt fmt; (roundCode f.p f.qmin .nearest neg a e, f.maxCode)

/-- One element of an MX line at scale exponent X: its code and whether it was brought to the largest value. -/
def mxElem (fmt : Nat) (x : Int) (v : FVal) : Nat × Bool :=
  match v with
  | .fin neg m e =>
    let (c, top) := mxRound fmt neg m (e - x)
    let sat := decide (top < c)
    let c := min c top
    (if fmt = 5 then uOf 8 (if neg then -(c : Int) else c) else b2n neg * 2 ^ (elemBits fmt - 1) + c, sat)
  | _ => (0, false)

/-- The larger magnitude of two finite values. -/
def magMax (x y : FVal) : FVal :=
  match x, y with
  | .fin _ m e, .fin _ n g => if dyLt ⟨m, e⟩ ⟨n, g⟩ then y else x
  | _, _ => x

/-- The scale exponent of a line whose largest magnitude is given (R139 steps 3 to 5, R140). -/
def mxScaleExp (fmt : Nat) (rule1 : Bool) (amax : FVal) : Int :=
  match amax with
  | .fin _ m e =>
    if m = 0 then -127 else
    let x := e + (Nat.log2 m : Int) - mxEmax fmt
    let (c, top) := mxRound fmt false m (e - x)
    clampI (-127) 127 (if rule1 && decide (top < c) then x + 1 else x)
  | _ => -127

/-- One line converted to an MX format: element codes, scale byte, elements saturated (R139). -/
def storeMxLine (fmt : Nat) (sat rule1 : Bool) (l : List (BitVec 32)) : List Nat × Nat × Nat :=
  let vs := l.map (fun x => fp32.decode x.toNat)
  let special := vs.any (fun v => match v with | .fin _ _ _ => false | _ => true)
  if special && !sat then (l.map (fun _ => 0), 255, 0) else
  let vs := vs.map (fun v => match v with
    | .nan => .fin false 0 0
    | .inf neg => let d := codeVal fp32.p fp32.qmin fp32.maxFin; .fin neg d.m.toNat d.e
    | o => o)
  let x := mxScaleExp fmt rule1 (vs.foldl magMax (.fin false 0 0))
  let es := vs.map (mxElem fmt x)
  (es.map (·.1), (x + 127).toNat, (es.map (fun e => b2n e.2)).sum)

/-- One line converted to the output format: element codes, its scale byte if the format has scales, elements
saturated. -/
def storeLine (fmt : Nat) (sat rule1 : Bool) (l : List (BitVec 32)) : List Nat × Option Nat × Nat :=
  if hasScale fmt then let (es, sc, n) := storeMxLine fmt sat rule1 l; (es, some sc, n)
  else let es := l.map (storePlain fmt sat); (es.map (·.1), none, (es.map (fun e => b2n e.2)).sum)

/-- Line r of the image: row r of the tile, or column r when transposed (R135). -/
def tileLine (t : Tile) (trans : Bool) (r : Nat) : List (BitVec 32) :=
  (List.range 32).map (fun k => t.getD (if trans then 32 * k + r else 32 * r + k) 0)

/-- The NaN and infinite elements of a tile (R140). -/
def tileSpecials (t : Tile) : Nat :=
  (t.filter (fun x => decide (fp32.infCode ≤ x.toNat % fp32.sign))).length

/-- The image of a tile: pieces of offset and bytes, and the elements saturated (R116, R117, R135 to R140). -/
def tileImage (t : Tile) (fmt stride : Nat) (sat trans rule1 : Bool) : List (Nat × List Byte) × Nat :=
  let ls := (List.range 32).map (fun r => storeLine fmt sat rule1 (tileLine t trans r))
  let lines := (List.range 32).zipWith (fun r l =>
    (lineOffset fmt stride r, leBytes (lineBytes fmt) (packElems (elemBits fmt) l.1))) ls
  let scales := ls.filterMap (fun l => l.2.1.map (fun x => BitVec.ofNat 8 x))
  (lines ++ (if scales.isEmpty then [] else [(scaleOffset fmt stride, scales)]), (ls.map (·.2.2)).sum)

end Sys2Proof.Machine
end

