-- ==== Sys2Proof/Machine/Sparse.lean ====
section
/-! DEFINITION. Finite maps with a default, as canonical lists of key and value pairs: the one form in which register
files, counters, tables and memory bytes are held. -/

namespace Sys2Proof.Machine

/-- A map from numbers to values with a default value kept elsewhere: keys strictly rise and no listed value is the
default, so equal maps are equal data. -/
abbrev Sparse (α : Type) := List (Nat × α)

/-- The value at key `k`, or the default `d`. -/
def spGet {α : Type} (d : α) : Sparse α → Nat → α
  | [], _ => d
  | (k', v) :: t, k => if k = k' then v else spGet d t k

/-- The map without the keys that `p` selects. -/
def spErase {α : Type} (p : Nat → Bool) (m : Sparse α) : Sparse α := m.filter (fun e => !p e.1)

/-- The map with `v` at key `k`, in its place among rising keys. -/
def spIns {α : Type} (k : Nat) (v : α) : Sparse α → Sparse α
  | [] => [(k, v)]
  | (k', v') :: t =>
    if k < k' then (k, v) :: (k', v') :: t
    else if k = k' then (k, v) :: t
    else (k', v') :: spIns k v t

/-- The map with `v` at key `k`; writing the default removes the entry. -/
def spPut {α : Type} [DecidableEq α] (d : α) (k : Nat) (v : α) (m : Sparse α) : Sparse α :=
  if v = d then spErase (fun j => decide (j = k)) m else spIns k v m

/-- The keys from a bound on strictly rise and no value is the default. -/
def spSorted {α : Type} [DecidableEq α] (d : α) : Nat → Sparse α → Bool
  | _, [] => true
  | b, (k, v) :: t => decide (b ≤ k) && !decide (v = d) && spSorted d (k + 1) t

/-- The canonical form of a sparse map with default `d`. -/
def spWf {α : Type} [DecidableEq α] (d : α) (m : Sparse α) : Bool := spSorted d 0 m

/-- The value at `k` changed by `f`. -/
def spMod {α : Type} [DecidableEq α] (d : α) (k : Nat) (f : α → α) (m : Sparse α) : Sparse α :=
  spPut d k (f (spGet d m k)) m

/-- A sorted list of numbers with `k` added once. -/
def nsInsert (k : Nat) : List Nat → List Nat
  | [] => [k]
  | a :: t => if k < a then k :: a :: t else if k = a then a :: t else a :: nsInsert k t

/-- A list of numbers without `k`. -/
def nsErase (k : Nat) (l : List Nat) : List Nat := l.filter (fun a => !decide (a = k))

/-- Strictly rising from a bound. -/
def nsSorted : Nat → List Nat → Bool
  | _, [] => true
  | b, a :: t => decide (b ≤ a) && nsSorted (a + 1) t

end Sys2Proof.Machine
end

