-- ==== Sys2Proof/Machine/State.lean ====
section
/-! DEFINITION. The state of the module as plain data, and the state after reset. -/

namespace Sys2Proof.Machine

/-! ### Landings and flights (chapters 03 to 05) -/

/-- A range of granules held by a tracker, ends included (R90). -/
structure Rng where
  lo : Nat
  hi : Nat
  wr : Bool
  deriving DecidableEq, Repr

/-- Bytes placed at an offset from a base. -/
structure Piece where
  off : Nat
  bytes : List Byte
  deriving DecidableEq, Repr

/-- The operation a range tracker holds (R89, R90), with every value it took at issue. Physical addresses are after
translation (R184). -/
inductive AsyncOp where
  /-- A scalar load of `n` bytes into `sd`, with the w32 bit. -/
  | ld (sd n pa va : Nat) (w32 : Bool)
  /-- A scalar store. -/
  | st (pa va : Nat) (bytes : List Byte)
  /-- A vector load under a lane mask, from the first granule that holds an enabled lane on. -/
  | vld (vd pa va ty : Nat) (pred : W64) (zero : Bool)
  /-- A vector store from the first granule that holds an enabled lane on: its bytes, and one flag a byte. -/
  | vst (pa va : Nat) (bytes : List Byte) (en : List Bool)
  /-- A tile load into fa[b] or fb[b] (R115). -/
  | mload (toB : Bool) (b fmt stride : Nat) (dual : Bool) (pa va : Nat)
  /-- A load of the metadata area of fb[b] (R118). -/
  | mloadMeta (b pa va : Nat)
  /-- A tile store: the image's pieces (R136). -/
  | mstore (pa va : Nat) (image : List Piece)
  /-- A send-on-complete tile store (R142). -/
  | soc (descPa va : Nat) (image : List Piece)
  /-- xcopy (R186). -/
  | xcopy (src dst va len : Nat)
  /-- xfill (R186). -/
  | xfill (dst va len : Nat) (pat : W64)
  /-- xunpack (R193): packed input, destination, capacity in bytes, code-table set; physical addresses. -/
  | xunpack (src len dst va cap tables : Nat)
  /-- xstream (R188). -/
  | xstream (dst va cap table len : Nat)
  /-- xnic (R322). -/
  | xnic (descPa : Nat)
  /-- xtrig (R329). -/
  | xtrig (descPa : Nat)
  /-- xtopk (R160). -/
  | xtopk (src dst va n ty : Nat) (smallest : Bool) (k indexBase : Nat)
  deriving DecidableEq, Repr

/-- A range tracker (R89 to R94). -/
structure Tracker where
  id : Nat
  rngs : List Rng
  /-- Indirect-source mark of an xstream (R90). -/
  indirect : Bool
  /-- Landing cycle of allocation (R94). -/
  alloc : Nat
  /-- Register, buffer and metadata resources the operation writes. -/
  dst : List Nat
  op : AsyncOp
  /-- Counter notified on completion (R79). -/
  notify : Option Nat
  /-- The operation may finish: its engine or the NIC has done or taken its part. -/
  ready : Bool
  /-- Answers of a window access still to come, the bytes of a window load by offset, and whether one was poisoned or
  failed (R173, R174). -/
  parts : Nat
  got : List Piece
  gotBad : Bool
  /-- Its engine reported it failed before the retirement, with the cause of R209 and its detail. -/
  failed : Option (Nat × Nat)
  /-- engine_timeout has been raised for it (R94). -/
  timedOut : Bool
  /-- The last granule of an mstore's image has left the landing: its tile output buffer is free (R137). -/
  imgOut : Bool
  deriving DecidableEq, Repr

/-- What a landing is doing (R108). -/
inductive LPhase where
  | idle | running | waiting | draining | halted
  deriving DecidableEq, Repr

/-- Registers, tiles and operand buffers of a landing (R60). -/
structure LRegs where
  s : Sparse W64
  v : Sparse VWord
  p : Sparse W64
  acc : Sparse Tile
  /-- Line i of fa[b] at 32 b + i. -/
  fa : Sparse BufLine
  fb : Sparse BufLine
  /-- Metadata word of line j of fb[b] at 32 b + j (R131). -/
  md : Sparse W64
  /-- Bad marks of registers, buffers and metadata areas: cause and address (R122, R174). -/
  bad : Sparse (Nat × Nat)
  waitTmo : W64
  rngKey : W64
  deriving DecidableEq, Repr

/-- Issue state of a landing (R85 to R88, R96, R105, R106, R132). -/
structure LPipe where
  pc : Nat
  /-- Landing cycles since kernel entry. -/
  cyc : Nat
  /-- First cycle in which a resource may be read or written again. -/
  rdy : Sparse Nat
  /-- First cycle in which an accumulator tile read by mstore may be written. -/
  accBusy : Sparse Nat
  /-- Landing cycles still to wait for the page boundaries of the current bundle; none before the first (R184). -/
  xcross : Option Nat
  /-- First cycle an accumulator tile may be read by mstore or written by mzero after mmac. -/
  accRdy : Sparse Nat
  sfuFree : Nat
  divFree : Nat
  flightFree : Nat
  /-- The 16-cycle frame in which mmac was last allotted cycles, and how many (R133). -/
  frame : Nat
  opened : Nat
  /-- First cycle after the previous bundle's stop bit is satisfied, and the trackers it waits for. -/
  stopAt : Nat
  stopTrk : List Nat
  /-- Cycles still lost after a branch. -/
  lost : Nat
  /-- Cycles without issue while running (R106). -/
  noIssue : Nat
  /-- The current bundle is being issued again after a parity error (R105). -/
  reissue : Bool
  /-- Cycle at which the current bundle reached issue. -/
  reach : Option Nat
  /-- The wait of the current bundle has timed out (R96). -/
  timedOut : Bool
  deriving DecidableEq, Repr

/-- The kernel a landing runs (R99 to R102). -/
structure LKern where
  /-- Context slot, 0 to 31. -/
  slot : Nat
  /-- Context ID and generation, as SR_CTX. -/
  ctx : Nat
  seq : Nat
  rank : Nat
  nland : Nat
  param : W64
  exitCode : W32
  /-- Context ID and generation of the last kernel the landing ran, for R208. -/
  last : Option Nat
  /-- Tracker limit L in force (R94, R112). -/
  trkLimit : Nat
  deriving DecidableEq, Repr

/-- LND_FAULT, LND_FAULT_PC and LND_FAULT_ADDR (R109, R110). -/
structure LFaultRegs where
  valid : Bool
  slot : Nat
  cause : Nat
  pc : Nat
  addr : W64
  deriving DecidableEq, Repr

/-- One landing and its flight (R60). -/
structure Landing where
  phase : LPhase
  regs : LRegs
  pipe : LPipe
  kern : LKern
  flt : LFaultRegs
  trk : List Tracker
  trkNext : Nat
  /-- Instruction store by bundle index (R61). -/
  imem : Sparse (BitVec 512)
  deriving DecidableEq, Repr

/-- The registers of a landing at kernel entry and at reset (R101). -/
def LRegs.empty : LRegs := ⟨[], [], [], [], [], [], [], [], 0, 0⟩

/-- A landing after reset. -/
def Landing.reset : Landing where
  phase := .idle
  regs := .empty
  pipe := ⟨0, 0, [], [], none, [], 0, 0, 0, 0, 0, 0, [], 0, 0, false, none, false⟩
  kern := ⟨0, 0, 0, 0, 0, 0, 0, none, 24⟩
  flt := ⟨false, 0, 0, 0, 0⟩
  trk := []
  trkNext := 0
  imem := []

/-! ### Memory tiers and their engines (chapter 06) -/

/-- Memory contents. Keys: stack memory by 2^37 times the stack plus the stack-local offset, every other tier by its
physical address. -/
structure Memory where
  /-- Bytes that differ from 0. -/
  bytes : List Host.Cell
  /-- Poisoned granules, by key / 64 (R202). -/
  poison : List Nat
  /-- Granules of landing and gallery stores written since the store was cold, by key / 64 (R207). -/
  warm : List Nat
  deriving DecidableEq, Repr

/-- A cached translation (R185): slot, level, virtual page number at that level, and the leaf entry. -/
structure XltEntry where
  slot : Nat
  level : Nat
  vpn : Nat
  entry : W64
  deriving DecidableEq, Repr

/-- A job of a page streamer, unpack engine or top-k engine: the landing and tracker it serves. -/
structure Job where
  landing : Nat
  trk : Nat
  ctx : Nat
  deriving DecidableEq, Repr

/-- Memory control state. -/
structure MemCtl where
  /-- Active interleave regions (R176). -/
  ilv : List W64
  stackUp : BitVec 8
  stackReduced : BitVec 8
  /-- The retired channel of each stack on 15 channels (R175). -/
  retChan : Sparse Nat
  mezz2x : BitVec 4
  retireFull : Bool
  /-- Galleries whose store is out of service (R435). -/
  galHole : List Nat
  /-- Retired pages as physical addresses, oldest first (R201). -/
  retired : List Nat
  /-- An invalidation in progress: scope and slot (R211). -/
  xltInv : Option (Nat × Nat)
  xltCache : List XltEntry
  /-- Stores that are power-gated: slot s as s, gallery g as 104 + g (R206). -/
  gated : List Nat
  /-- The store_gate_idle_us of a store whose idle period began before the present value was written (R216). -/
  gateKeep : Sparse (Option Nat)
  /-- Writer masks by store number (R208). -/
  writers : Sparse (BitVec 32)
  /-- MEM_ENG_ERR (R212). -/
  engErr : W64
  /-- Jobs waiting and in service of streamer 2 g + i (R187). -/
  strQ : Sparse (List Job)
  strRun : Sparse (List Job)
  /-- Unpack jobs waiting by hall, in service by engine 8 h + e (R192). -/
  upkQ : Sparse (List Job)
  upkRun : Sparse (List Job)
  /-- Top-k jobs waiting and in service by gallery (R163). -/
  topQ : Sparse (List Job)
  topRun : Sparse (List Job)
  /-- DRAM channels in power-down and in self-refresh: channel c of stack s as 16 s + c, mezzanine channel c of hall h
  as 128 + 32 h + c (R205). -/
  pdn : List Nat
  srf : List Nat
  /-- Local times of the correctable errors of a row within 24 h, by row key (R199). -/
  rowErr : Sparse (List Nat)
  /-- Mezzanine spare rows used, by bank key (R200), and rows being copied. -/
  spareUsed : Sparse Nat
  copying : List Nat
  /-- Stack rows recorded for repair at the next start (R199). -/
  repairRows : List Nat
  deriving DecidableEq, Repr

/-! ### Router (chapter 08) -/

/-- Router state (R246 to R257). -/
structure Router where
  /-- This module's node ID (R266). -/
  node : BitVec 12
  /-- Routing table by node (R247). -/
  table : Sparse W64
  /-- Staged cells by input port, oldest first; at most 4 (R249). -/
  staging : Sparse (List Cell)
  /-- Cells with a slot on an external port that wait for its next unit, each with the port it came in on: 0 to 15, 18 for
  the NIC, 20 for a cell the port makes itself (a link-local cell or a replay of R303). -/
  outq : Sparse (List (Nat × Cell))
  /-- Cells handed to NIC port 18 and not yet processed there. -/
  toNic : List Cell
  /-- Cells for the HMP at port 19. -/
  toHmp : List Cell
  /-- Ports removed from every output choice by DEPART (R256). -/
  removed : List Nat
  /-- Hub cycles routed. -/
  cycle : Nat
  /-- Cells whose output left ACTIVE before their unit formed, with the port they came in on; they are routed again as
  staged cells (R256, R292). -/
  back : List (Nat × Cell)
  deriving DecidableEq, Repr

/-! ### Network interface and collectives (chapters 08 and 10) -/

/-- A counter: 48-bit value and error flag (R325). -/
structure Ctr where
  val : BitVec 48
  err : Bool
  deriving DecidableEq, Repr

/-- Where a descriptor came from: a landing's tracker, if it has one, and its kernel. -/
structure DescSrc where
  trk : Option (Nat × Nat)
  /-- Launch sequence and context of the kernel that posted it, for R102. -/
  kernel : Option (Nat × Nat)
  /-- X-slot counter that takes the place of lctr (R322). -/
  xctr : Option Nat
  deriving DecidableEq, Repr

/-- An entry of the descriptor queue (R314): the context slot, the descriptor's address in the own landing store or
its 64 bytes, and the tile image of a send-on-complete. -/
structure DqEnt where
  slot : Nat
  src : DescSrc
  descPa : Option Nat
  desc : BitVec 512
  image : Option (List Piece)
  deriving DecidableEq, Repr

/-- An armed trigger slot (R329); the list of them is in the order of arming. -/
structure TrigEnt where
  num : Nat
  slot : Nat
  desc : BitVec 512
  /-- Launch sequence and context of the kernel that armed it (R227). -/
  kernel : Option (Nat × Nat)
  deriving DecidableEq, Repr

/-- A descriptor in progress (R334). -/
structure Item where
  id : Nat
  slot : Nat
  ctx : Nat
  kind : Nat
  tag : W64
  cls : Nat
  dst : Nat
  rctr : Option Nat
  /-- The NOTIFY of rmode 1 has still to be sent (R319). -/
  notifyEnd : Bool
  lctr : Option Nat
  stamp : Bool
  cells : Nat
  confirmed : Nat
  failed : Nat
  firstFail : Nat
  firstCause : Nat
  newUe : Bool
  poison : Bool
  src : DescSrc
  deriving DecidableEq, Repr

/-- What the answer to an outstanding cell does here. -/
inductive AnsPlace where
  | none
  /-- Bytes placed at a physical address (R320). -/
  | bytes (pa : Nat)
  /-- A window load of a landing's tracker: part index of its bytes (R173). -/
  | window (landing trk : Nat) (off : Nat)
  deriving DecidableEq, Repr

/-- Who an outstanding cell belongs to. -/
inductive CellOwner where
  | item (id : Nat)
  | inst (ctx group num : Nat)
  | window (landing trk : Nat)
  | notice
  deriving DecidableEq, Repr

/-- An outstanding cell of the resend store (R243). -/
structure OutCell where
  cell : Cell
  owner : CellOwner
  place : AnsPlace
  /-- Resends after a bounce notice, and after early_full (R254, R347). -/
  resends : Nat
  early : Nat
  /-- Waiting for its early_full retry. -/
  parked : Bool
  /-- K3 resends (R297). -/
  k3sends : Nat
  /-- The link lost its unit when the port left ACTIVE on DEPART (R292). -/
  lostDepart : Bool
  deriving DecidableEq, Repr

/-- A flow's next sequence number (R242). -/
structure Flow where
  dst : Nat
  ctx : Nat
  gen : Nat
  next : Nat
  deriving DecidableEq, Repr

/-- An ACK buffer entry (R244). -/
structure AckEnt where
  src : Nat
  ctx : Nat
  gen : Nat
  cls : Nat
  seqs : List Nat
  deriving DecidableEq, Repr

/-- Roles of a collective operation (R343). -/
inductive CollKind where
  | bcast | reduce | exchange
  deriving DecidableEq, Repr

/-- A receive slot of an exchange (R352, R353): the items announced by the COLL_HDR, the place given to each item that
has arrived (none where it is dropped), and the cells placed and dropped. -/
structure XSlot where
  sent : Option Nat
  items : List (Nat × Option Nat)
  placed : Nat
  dropped : Nat
  complete : Bool
  deriving DecidableEq, Repr

/-- A reduce chunk in work (R349): the member's own part and its children's partials, by virtual rank, in order of
arrival. -/
structure RChunk where
  arr : List (Nat × List (BitVec 32))
  poison : Bool
  done : Bool
  deriving DecidableEq, Repr

/-- A collective operation started at this module (R340 to R356). -/
structure Inst where
  slot : Nat
  ctx : Nat
  group : Nat
  num : Nat
  kind : CollKind
  tree : Bool
  fan : Nat
  bf16 : Bool
  contrib : Bool
  root : Nat
  rank : Nat
  /-- Node IDs in rank order. -/
  nodes : List Nat
  /-- Physical address of the result, the broadcast's destination or the receive area (R316). -/
  dst : Nat
  len : Nat
  cap : Nat
  deadline : Nat
  resCtr : Option Nat
  lctr : Option Nat
  tag : W64
  stamp : Bool
  src : DescSrc
  /-- The local ranges its start names have been read. -/
  ownRead : Bool
  /-- Broadcast chunks written here. -/
  got : List Nat
  chunks : Sparse RChunk
  xslots : Sparse XSlot
  /-- Cells of it still to be acknowledged. -/
  unacked : Nat
  confirmed : Nat
  finishSent : Bool
  /-- Ranks whose FINISH has arrived. -/
  finished : List Nat
  newUe : Bool
  poison : Bool
  /-- Cells dropped here and reported dropped by OVERFLOW. -/
  overflow : Nat
  /-- Local time at which the member finished its part (R354). -/
  finishAt : Option Nat
  deriving DecidableEq, Repr

/-- A completion record held while its ring is full, with the local increment it precedes (R337). -/
structure HeldRec where
  record : BitVec 256
  lctr : Option (Nat × Bool)
  deriving DecidableEq, Repr

/-- A fadd held in reproducible mode (R478), with the address of its element, its arrival, and its hold in ns. -/
structure HeldAtomic where
  cell : Cell
  slot : Nat
  pa : Nat
  at_ : Nat
  hold : Nat
  deriving DecidableEq, Repr

/-- A fadd applied lately to an element (R472, R478): its key and the local time. -/
structure FaddLog where
  slot : Nat
  pa : Nat
  src : Nat
  seq : Nat
  at_ : Nat
  deriving DecidableEq, Repr

/-- NIC state. -/
structure Nic where
  /-- NIC_CTX_CFG by slot (R358). -/
  ctxCfg : Sparse (BitVec 256)
  ctr : Sparse Ctr
  cqProd : Sparse W64
  held : Sparse (List HeldRec)
  trig : List TrigEnt
  dq : List DqEnt
  items : List Item
  itemNext : Nat
  resend : List OutCell
  flows : List Flow
  /-- Express cells waiting for budget, in issue order (R262). -/
  expq : List OutCell
  /-- Cells formed and not yet sent because the resend store is full (R243). -/
  waitq : List OutCell
  /-- Cells waiting to be injected, in order (R249 pass 4). -/
  txq : List Cell
  acks : List AckEnt
  /-- Express filter, newest first (R245). -/
  expFilter : List (Nat × Nat × Nat × Nat)
  /-- Express cells released and received in the present window (R262, R263). -/
  expOut : Nat
  expTo : Sparse Nat
  expIn : Nat
  /-- Budget and allocations in force since the last Express window boundary (R262). -/
  expBudget : Nat
  expAlloc : List Byte
  insts : List Inst
  vest : List Cell
  /-- Instances completed here, by context and generation, group and number (R346). -/
  doneInst : List (Nat × Nat × Nat)
  /-- Contributions read before their operation started, each with the physical address of its range (R316, R345). -/
  contribWait : List (DqEnt × Nat)
  heldAtomics : List HeldAtomic
  faddLog : List FaddLog
  /-- Slots made valid in reproducible mode (R475). -/
  repro : BitVec 32
  stopped : Bool
  deriving DecidableEq, Repr

/-! ### Rack time (chapter 02) -/

/-- Lock states (R36), in the order of their codes. -/
inductive LockState where
  | unlocked | acquiring | locked | holdover | lost
  deriving DecidableEq, Repr

/-- Per rack port: the time cells of R31 to R34. -/
structure TimePort where
  /-- req_seq of the next TIME_REQ, and the last four sent with the local time of each, newest first. -/
  reqNext : W32
  reqs : List (W32 × Nat)
  /-- A TIME_SYNC has arrived and its TIME_REQ is due. -/
  reqDue : Bool
  /-- The last valid link delays, in half nanoseconds, newest first, at most 16. -/
  deltas : List Int
  /-- The estimate of this period, in half nanoseconds, if valid. -/
  est : Option Int
  /-- A TIME_SYNC with a right check field has come in this period. -/
  heard : Bool
  /-- Reported by the port's last TIME_SYNC. -/
  master : Bool
  masterValid : Bool
  hallTraceable : Bool
  rejected : Bool
  /-- Consecutive periods beyond and within the limit (R34). -/
  outRun : Nat
  inRun : Nat
  deriving DecidableEq, Repr

/-- What a scheduled action changes (R50). -/
inductive SchedKind where
  | cap (w : Nat)
  | ff (mhz : Nat)
  | lsStart (partner : Nat) (ctx : Nat)
  deriving DecidableEq, Repr

/-- A pending scheduled action; the list of them is in the order of acceptance (R51). Boundary 0 means the next one. -/
structure Sched where
  boundary : Nat
  kind : SchedKind
  deriving DecidableEq, Repr

/-- The rack time unit. -/
structure Tim where
  /-- Local time in ns since power-on, for elapsed times. -/
  now : Nat
  count : W64
  state : LockState
  /-- Consecutive combined estimates within 4 ns, and beyond 16 ns (R37). -/
  okRun : Nat
  badRun : Nat
  /-- Part of the correction not yet slewed out, in ns, positive when the count is ahead, and ns since its last one. -/
  slew : Int
  slewAcc : Nat
  /-- The rate corrections made while combined estimates came in ACQUIRING and LOCKED: ppm, positive where the count was
  sped up, and for how many ns, newest first, the last 2^30 ns of them; and the fraction of a ns that running at their mean
  has gathered (R38). -/
  learn : List (Int × Nat)
  frac : Nat
  /-- Time spent in LOCKED since the last system reset, up to 2^30 ns (R38). -/
  lockedNs : Nat
  everLocked : Bool
  /-- Local time of the last valid combined estimate and of the last valid RT_PULSE edge. -/
  lastEst : Nat
  lastPulse : Option Nat
  /-- Estimates present in this state (the last period gave one). -/
  estPresent : Bool
  pulseHeld : Bool
  /-- RT_PULSE treated as absent (R43), and the level last seen. -/
  pulseAbsent : Bool
  pulseLevel : Bool
  backwardHold : Bool
  /-- The backward offset held, in ns. -/
  backwardBy : Nat
  expressWithdrawn : Bool
  windowsUnaligned : Bool
  /-- LOCKED has been reached and no power window boundary has come since (R48). -/
  alignDue : Bool
  /-- Numbers of the Express, power and telemetry windows last begun (R44). -/
  expWin : Nat
  powWin : Nat
  telWin : Nat
  master : Bool
  masterValid : Bool
  portValid : BitVec 6
  ports : Sparse TimePort
  evt : BitVec 8
  sched : List Sched
  deriving DecidableEq, Repr

/-! ### Ports (chapter 09) -/

/-- A unit as it is sent: the 80 bits of its unit field and its 32 slots (R276). -/
structure SentUnit where
  useq : BitVec 16
  ack : BitVec 16
  nak : BitVec 16
  crc : BitVec 32
  slots : List USlot
  deriving DecidableEq, Repr

/-- A unit in the retry buffer (R287, R289): its slots, the times it was sent again, and units sent since. -/
structure RetryEnt where
  useq : BitVec 16
  slots : List USlot
  reps : Nat
  since : Nat
  deriving DecidableEq, Repr

/-- A lane of a port. -/
structure Lane where
  /-- Coefficient steps applied on request: pre2, pre1, post1, and the preset last applied (R284). -/
  pre2 : Int
  pre1 : Int
  post1 : Int
  preset : Nat
  /-- rx_ready received from the other end; ready at both ends; locked. -/
  rxReady : Bool
  ready : Bool
  locked : Bool
  /-- Local times of the retrains charged within 10 minutes (R293), corrected symbols and uncorrectable codewords of the present power
  window, and consecutive windows above fec_ser_limit (R291). -/
  recent : List Nat
  corr : Nat
  uncorr : Nat
  fecRun : Nat
  /-- Uncorrectable codewords of the last four closed power windows, newest first. -/
  uncorrHist : List Nat
  /-- Answers to the partner's last tap requests, in the coding of R284: pre2, pre1, post1. -/
  pre2St : BitVec 2
  pre1St : BitVec 2
  post1St : BitVec 2
  /-- Consecutive codewords that decoded, and that could not be corrected (R284). -/
  okRun : Nat
  badRun : Nat
  deriving DecidableEq, Repr

/-- Port training states (R281), in the order of their codes. -/
inductive PState where
  | disabled | detect | equalize | align | identify | admitWait | active | drain | retrain | held | retired
  deriving DecidableEq, Repr

/-- A port. -/
structure Port where
  st : PState
  /-- Lane masks in use and retired. -/
  lanes : BitVec 4
  retired : BitVec 4
  width : Nat
  k3 : Bool
  cause : Nat
  /-- The last IDENT, and the identity held since READY (R286). -/
  ident : Option Ident
  heldId : Option Ident
  owner : Bool
  protected_ : Bool
  evt : BitVec 5
  /-- Trigger of R302 in the present and in the previous power window. -/
  trigNow : Bool
  trigPrev : Bool
  /-- Transmit side: next useq, retry buffer oldest first, last ack received. -/
  txSeq : BitVec 16
  retry : List RetryEnt
  rxAck : BitVec 16
  /-- Link slots waiting to be sent. -/
  links : List USlot
  /-- Unit named by a nak, to be sent next. -/
  replayReq : Option (BitVec 16)
  /-- Receive side: cumulative ack to send, units received beyond it, highest useq seen, nak to send. -/
  ack : BitVec 16
  beyond : List (BitVec 16)
  highest : BitVec 16
  nak : BitVec 16
  /-- Consecutive good units in ALIGN. -/
  goodRun : Nat
  /-- Staging credit held for a K3 or endpoint partner (R250, R295). -/
  credit : Nat
  /-- Bad units of the present power window, and consecutive windows above retry_limit. -/
  badUnits : Nat
  retryRun : Nat
  laneState : Sparse Lane
  /-- Mirror of the pair partner's Express cells and its last ack (R301). -/
  mirror : List (BitVec 16 × Cell)
  mirrorAck : BitVec 16
  /-- Window account of the pair: the Express window, and the cells sent in it and in the one before (R301). -/
  acctWin : Nat
  acctNow : Nat
  acctPrev : Nat
  /-- Local time of the last IDENT sent, staging credit to return, and codewords received modulo 3 (R276, R285, R295). -/
  identAt : Option Nat
  owed : Nat
  rxPhase : Nat
  /-- Router cycles in which its output last withheld slots and its input last received cells (R290). -/
  withheld : Option Nat
  lastIn : Option Nat
  /-- Half a cell slot left over from the last hub cycle, at widths x3 and x1 (R273). -/
  half : Nat
  /-- Codewords sent modulo the width (R276). -/
  txPhase : Nat
  /-- The last unit sent: its unit field and its 32 slots (R276). -/
  sent : Option SentUnit
  /-- What the lanes last carried: lane and PAM4 levels, in the order of sending (R274, R284). -/
  line : List (Nat × List (BitVec 2))
  deriving DecidableEq, Repr

/-- Port-level state shared by all ports. -/
structure Ports where
  port : Sparse Port
  /-- Detour buffer with each cell's input port (R290). -/
  detour : List (Nat × Cell)
  /-- K3 filter, newest first (R298). -/
  k3Filter : List (Nat × Nat × Nat × Nat)
  deriving DecidableEq, Repr

/-! ### Power and cooling (chapter 11) -/

/-- A group of rails (R365). -/
inductive Rail where
  | off | rising | on | failed
  deriving DecidableEq, Repr

/-- The settings of R370 in force since the last power window boundary. -/
structure PwrSet where
  pplWindow : Nat
  pplW : Nat
  railW : Nat
  railE : Nat
  brakePct : Nat
  lostCapPct : Nat
  boost : Bool
  ffMhz : Nat
  floorW : Nat
  rampW : Nat
  tjC : Nat
  /-- coolant_type (R407). -/
  coolant : Nat
  deriving DecidableEq, Repr

/-- A gallery's clock, temperature and droop state (R376, R390, R406). -/
structure Gal where
  /-- Its four junction sensors in tenths of a degree; none while not read (R389). -/
  tj : Sparse (Option Int)
  /-- Landing clock in units of 25 MHz, and the clock and flight issue duty in sixteenths that its own self-throttle
  allows (R367, R390). -/
  clk : Nat
  own : Nat
  duty : Nat
  selfThrottle : Bool
  sensorFault : Bool
  /-- Stretch level 0 to 3, and the deepest level of the present stretch. -/
  stretch : Nat
  deepest : Nat
  deriving DecidableEq, Repr

/-- Readings of the supplies and of the cooling. -/
structure Cool where
  inletDc : Option Int
  outletDc : Option Int
  /-- Last reading of each other sensor in tenths of a degree: hub 0 to 7, port tiles 8 to 15, stacks 16 to 23,
  mezzanine layers 24 to 39. -/
  sensors : Sparse (Option Int)
  coolantHot : Bool
  flowGood : Bool
  /-- Good edges without a break since flow was last bad. -/
  flowRun : Nat
  flowStopped : Bool
  leakReading : Nat
  wetRun : Nat
  faultRun : Nat
  dryRun : Nat
  leakFault : Bool
  leakLatched : Bool
  /-- Local time of the last write of the coolant flow value (R398). -/
  flowWritten : Option Nat
  balanceSuspended : Bool
  balanceRun : Nat
  /-- Checks of R398 failing now, by cause. -/
  failing : List Nat
  sensingDegraded : Bool
  sensingCause : Nat
  deriving DecidableEq, Repr

/-- The supply and its sequencing. -/
structure Supply where
  inputMv : Nat
  /-- The input in mV at the last samples of 1 µs, newest first, at most 1,000 (R363, R407). -/
  inputHist : List Nat
  marginal : Bool
  enMem : Bool
  enMain : Bool
  /-- EN_MAIN was asserted too early and is not yet acted on (R364). -/
  enMainEarly : Bool
  memRails : Rail
  mainRails : Rail
  /-- Local time since which PG_MEM has been high, and how long in µs the input has been in its operating range. -/
  memSince : Nat
  okUs : Nat
  /-- Both enables must be removed before the next start (R365, R366), after a supply fault once the input has been in
  range for 100 ms. -/
  enRearm : Bool
  supplyHold : Bool
  stopRail : Nat
  stopCause : Nat
  tripLatched : Bool
  pwrOffReq : Bool
  brakePin : Bool
  deriving DecidableEq, Repr

/-- The limiters. -/
structure Limits where
  eff : PwrSet
  limit : Nat
  lostCap : Bool
  /-- sensing_degraded as the last boundary found it (R373). -/
  sensOn : Bool
  brake : Bool
  /-- Clock ceiling in units of 25 MHz, flight issue duty in sixteenths by hall, ballast in 1/64 of the free cycles. -/
  ceiling : Nat
  duty : Nat
  dutyW : Nat
  dutyE : Nat
  ballast : Nat
  lo : Nat
  hi : Nat
  capUnreachable : Bool
  floorCapped : Bool
  floorShort : Bool
  ffSuspended : Bool
  /-- Cause for which the last control interval had to go below the set clock, as event 0x2004 names it; 0 none (R382). -/
  ffCause : Nat
  rampBound : Bool
  railBoundW : Bool
  railBoundE : Bool
  pplBound : Bool
  /-- A mechanism ranked 1 to 5 reduced draw in the present and in the previous power window (R368). -/
  boundNow : Bool
  boundPrev : Bool
  ballastUsed : Bool
  /-- A mechanism ranked 2 to 4 reduced draw in the present window (R384). -/
  highNow : Bool
  /-- The brake, PPL, or the ramp term has lowered the ladder, which has not come back to its top since (R368, R371). -/
  heldBrake : Bool
  heldPpl : Bool
  heldRamp : Bool
  /-- Draws of the last control intervals, newest first (R372). -/
  recent : List Nat
  /-- The last change of L was a fall: every 4 µs interval is bound (R373). -/
  tight : Bool
  /-- Means of the last windows, newest first, as the limiter counts them (R372). -/
  hist : List Nat
  drawW : Nat
  evt : BitVec 10
  deriving DecidableEq, Repr

structure Pwr where
  supply : Supply
  cool : Cool
  lim : Limits
  gal : Sparse Gal
  /-- PWR_CTX_ENERGY by slot, and the three other energy registers (R404). -/
  ctxEnergy : Sparse W64
  overhead : W64
  ballastE : W64
  total : W64
  deriving DecidableEq, Repr

/-! ### Reset, start, faults and recovery (chapters 12 and 13) -/

/-- Health states of the module (chapter 15), in the order of their codes. -/
inductive MState where
  | off | start | ready | degraded | quiesced | maint | recovery | outOfService
  deriving DecidableEq, Repr

/-- An entry of the start-time defect list (R430, R431). -/
structure Defect where
  kind : Nat
  origin : Nat
  unit : Nat
  incarnation : W32
  detail : W64
  deriving DecidableEq, Repr

/-- A context scrub in progress (R456), or the zero fill after it (R459). -/
structure Scrub where
  slot : Nat
  ctx : Nat
  zero : Bool
  acceptedAt : W64
  items : Nat
  unwritten : Nat
  kernels : Nat
  /-- Writable leaf pages to fill, as address and length. -/
  pages : List (Nat × Nat)
  deriving DecidableEq, Repr

/-- scrub_report (R470). -/
structure ScrubReport where
  ctx : Nat
  result : Nat
  quality : Nat
  items : Nat
  unwritten : Nat
  kernels : Nat
  accepted : W64
  completed : W64
  zeroBytes : Nat
  deriving DecidableEq, Repr

/-- Why Withdraw runs: what follows its end (R454). -/
inductive AfterWithdraw where
  | sysReset | outOfService | railsOff | flowStop | leakStop
  deriving DecidableEq, Repr

/-- Reset and start state. -/
structure Rst where
  aon : Bool
  /-- Held in power-on or system reset: SYS_RST_N or PERST_N low, rails not up. -/
  held : Bool
  sysPinLow : Bool
  perstLow : Bool
  prsntLow : Bool
  seated : Bool
  /-- Stopped by removal (R461). -/
  removed : Bool
  /-- Every clock but the AON clock is stopped (R366, R391, R395). -/
  clocksStopped : Bool
  /-- Step of R419 reached. -/
  step : Nat
  refLocked : Bool
  refLost : Bool
  cause : BitVec 14
  failedStarts : Nat
  incarnation : W32
  phase : Nat
  hold : Nat
  failCause : Nat
  failPhase : Nat
  /-- Local time of the release of the present start, and its length frozen at READY in ms. -/
  startAt : Nat
  startMs : Option Nat
  lastStartMs : Nat
  cold : Bool
  trial : Bool
  topoOk : Bool
  withdraw : Option AfterWithdraw
  coreBusy : Bool
  /-- A core reset by the hang detector waits for a scrub (R460). -/
  hangPending : Bool
  deriving DecidableEq, Repr

/-- Health, defects and recovery records. -/
structure Health where
  state : MState
  degraded : BitVec 9
  landState : Sparse Nat
  lmap : Sparse Nat
  landingsEnabled : Nat
  defects : List Defect
  /-- Entries that found the list full: they apply for the present start (R432). -/
  defectsNow : List Defect
  defectSeq : W64
  defectInc : W32
  defectLost : Bool
  retirePending : BitVec 104
  /-- Powered-time stamps of counted resets within 24 h (R452). -/
  coreResets : List Nat
  sysResets : List Nat
  oosMark : Bool
  removalMark : Bool
  scrub : Option Scrub
  /-- Zero fills still to be done, oldest first (R459). -/
  fills : List Scrub
  report : ScrubReport
  /-- Last generation and scrub end of a context ID (R458). -/
  scrubbed : Sparse (Option (Nat × Nat))
  portAdmitted : Sparse W32
  portAdmitStored : Sparse W32
  /-- Training values stored at the last successful start (R425). -/
  trained : Bool
  deriving DecidableEq, Repr

/-- What is fixed at manufacture and by the straps (R428, R266). -/
structure Fuses where
  grade : Nat
  landingEnable : BitVec 104
  galleryFull : BitVec 16
  laneBad : BitVec 64
  stackChanBad : BitVec 128
  mezzRepaired : BitVec 16
  boardSlot : Nat
  trayId : Nat
  serial : List Byte
  deriving DecidableEq, Repr

/-! ### Management, firmware, lock-step, host interface and test port (chapters 14 to 18) -/

/-- An event record (R503). -/
structure EvRec where
  seq : Nat
  code : Nat
  unit : Nat
  stamp : W64
  quality : Nat
  state : Nat
  detail : W64
  deriving DecidableEq, Repr

/-- A stored answer (R495). -/
structure KmdAns where
  reqId : BitVec 16
  mtype : Nat
  idx : Nat
  sub : Nat
  body : List Byte
  deriving DecidableEq, Repr

/-- The open block transfer (R499). -/
structure BlkXfer where
  idx : Nat
  sub : Nat
  total : Nat
  data : List Byte
  since : Nat
  deriving DecidableEq, Repr

/-- The management port and the dictionary. -/
structure Kmd where
  /-- Writable scalar objects by 256 times the index plus the subindex; unlisted objects hold their default. -/
  objs : Sparse W64
  /-- Writable BLOB objects by the same keys; the empty list stands for the default. -/
  blobs : Sparse (List Byte)
  keys : Sparse (List Byte)
  lastCtr : W64
  txCtr : W64
  ctlMac : Option (BitVec 48)
  answers : List KmdAns
  xfer : Option BlkXfer
  /-- Requests in the queue of R496 are carried out as they arrive; the frames sent, oldest first. -/
  sent : List (List Byte)
  ev : List EvRec
  evNext : Nat
  evLost : Nat
  pendState : Nat
  pendSince : Nat
  stateSince : W64
  lastHb : W64
  /-- Local time silence is counted from (R502), and whether mgmt_lost holds. -/
  hbAt : Nat
  mgmtLost : Bool
  telemetry : List Byte
  /-- First over-receive of the telemetry period already reported (R505). -/
  overSent : Bool
  /-- Local time from which frames are answered again (R496). -/
  quietUntil : Nat
  plcaNode : Nat
  mac : BitVec 48
  deriving DecidableEq, Repr

/-- A service command in progress (R523). -/
inductive SvcJob where
  | erase
  | commit
  | keyWrite (slot : Nat) (key : List Byte)
  | keyErase (slot : Nat)
  deriving DecidableEq, Repr

/-- Flash and firmware (chapter 16). -/
structure Fw where
  /-- Flash bytes that differ from the erased value, by flash offset. -/
  flash : List Host.Cell
  /-- Ranges of staging programmed since the last erase, as offset and length. -/
  progd : List (Nat × Nat)
  /-- Pages accepted and not yet programmed: at most two buffers. -/
  bufs : List (Nat × List Byte)
  job : Option SvcJob
  active : Nat
  previous : Nat
  /-- 0 none, 1 pending, 2 failed. -/
  trial : Nat
  /-- The last start ran this trial. -/
  trialRan : Bool
  running : Nat
  secFuse : Nat
  revoked : BitVec 4
  stState : Nat
  stResult : Nat
  stVersion : W32
  stagedBytes : Nat
  error : Bool
  lastResult : Nat
  lastCmd : Nat
  irq : Bool
  copying : Bool
  /-- Local time the confirmation window ends. -/
  confirmUntil : Option Nat
  fallbackCnt : W64
  /-- Versions of the configuration records in use and of the copies kept for the previous firmware (R529). -/
  cfgVer : Nat
  cfgOld : Option Nat
  cfgObjs : Sparse W64
  cfgBlobs : Sparse (List Byte)
  migration : Nat
  /-- Result bytes of the last READ_ID, READ_STATUS or READ. -/
  readData : List Byte
  deriving DecidableEq, Repr

/-- A fetched launch descriptor with the verdict of R545: none when it may start. -/
structure LDesc where
  idx : W32
  desc : BitVec 1024
  verdict : Option (Nat × Nat)
  /-- Order in which it became ready, for reservations (R546). -/
  ready : Nat
  deriving DecidableEq, Repr

/-- The started item of a ring (R546, R548). -/
structure Running where
  idx : W32
  desc : BitVec 1024
  /-- Physical landings of a kernel in rank order, and rank and exit code of those that went on to another kernel. -/
  landings : List Nat
  left : List (Nat × W32)
  /-- First fault: rank and cause (R104). -/
  fault : Option (Nat × Nat)
  /-- A window store failed (R174). -/
  windowFail : Bool
  /-- Status forced by a scrub, core reset or withdrawal. -/
  forced : Option Nat
  /-- DMA: bytes moved, poison read, host error. -/
  moved : Nat
  poison : Bool
  failed : Bool
  /-- Sum of the CRCs of the kernel's granule writes (R482). -/
  lsSum : W64
  /-- Lock-step compares this kernel. -/
  compared : Bool
  /-- Its kernel record has been sent (R483). -/
  recSent : Bool
  /-- A host-interface reset has discarded its entry (R553). -/
  noEntry : Bool
  deriving DecidableEq, Repr

/-- A launch ring (R542, R543). -/
structure Ring where
  base : W64
  cqBase : W64
  cfg : W32
  tail : W32
  head : W32
  prod : W32
  fetched : List LDesc
  run : Option Running
  deriving DecidableEq, Repr

/-- What the module sends to the host: posted writes, interrupts and read completions. -/
inductive HostOut where
  | write (addr : W64) (data : List Byte) (ep : Bool)
  | msix (vec : Nat) (addr : W64) (data : W32)
  | completion (data : List Byte) (ep : Bool)
  | abort
  deriving DecidableEq, Repr

/-- The host interface (chapter 17). -/
structure Hif where
  err : W32
  scrubBusy : Bool
  win : Sparse W64
  rings : Sparse Ring
  readyNext : Nat
  d3hot : Bool
  linkUp : Bool
  speed : Nat
  width : Nat
  flit : Bool
  /-- MSI-X table entries by vector: message address, data and mask bit, and the pending bits. -/
  msixAddr : Sparse W64
  msixData : Sparse W32
  msixMask : Sparse Bool
  pba : List Nat
  out : List HostOut
  /-- Upper words latched by reads of low words, by offset (R56). -/
  latch : Sparse W32
  deriving DecidableEq, Repr

/-- A lock-step record of this module or of its partner, not yet matched (R483, R485). -/
structure LsRec where
  /-- Launch sequence number of its kernel. -/
  kernel : Nat
  rank : Nat
  bundle : Nat
  seq : Nat
  digest : W64
  va : W64
  at_ : Nat
  deriving DecidableEq, Repr

/-- Lock-step comparison (R484 to R486). -/
structure LockStep where
  state : Nat
  endCause : Nat
  localDetect : Bool
  partner : Nat
  ctx : Nat
  kernel : W32
  rank : Nat
  bundle : Nat
  seq : W32
  va : W64
  own : W64
  theirs : W64
  mine : List LsRec
  recv : List LsRec
  /-- Tile sequence of each landing's next mstore (R482). -/
  tileSeq : Sparse Nat
  deriving DecidableEq, Repr

/-- The test access port (R575, R576). -/
structure Jtag where
  ir : Byte
  /-- Boundary-scan register, by the order of the digital LS pins in R570. -/
  bsr : BitVec 28
  /-- The data register captured last. -/
  dr : BitVec 96
  deriving DecidableEq, Repr

/-- Levels present on the strap pins (R573). -/
structure Pins where
  boardSlot : BitVec 2
  trayId : BitVec 6
  latched : Bool
  deriving DecidableEq, Repr

/-! ### The whole module -/

/-- Everything but memory contents and the command queue. -/
structure Dev where
  lnd : Sparse Landing
  memc : MemCtl
  rtr : Router
  nic : Nic
  tim : Tim
  ports : Ports
  pwr : Pwr
  rst : Rst
  health : Health
  fuses : Fuses
  kmd : Kmd
  fw : Fw
  hif : Hif
  ls : LockStep
  jtag : Jtag
  pins : Pins
  /-- Event counters by BAR0 offset (R15): 64 bits, saturating. -/
  cnt : Sparse W64
  /-- Plain host registers by BAR0 offset. -/
  regs : Sparse W64
  /-- Number of the next free value (log entry 6): the model's own. -/
  freeCtr : Nat
  deriving DecidableEq, Repr

/-- The module: memory, everything else, and the commands that wait, first in first out. -/
structure State where
  mem : Memory
  dev : Dev
  pending : List Instr
  deriving DecidableEq, Repr

/-- The ways the model can stop with a fault. No meaning of this model answers with one: every command of the table has
an effect in every state (safe). -/
inductive Fault where
  /-- Raised by no meaning; it names the outcome only (safe). -/
  | stuck
  deriving DecidableEq, Repr

/-- The ways the model can decline a command. -/
inductive Refusal where
  /-- A command without a meaning yet; raised by an arm of exec alone (safe). -/
  | notModelled (mnemonic : String)
  deriving DecidableEq, Repr

/-! ### The state after reset -/

def Memory.reset : Memory := ⟨[], [], []⟩

def MemCtl.reset : MemCtl where
  ilv := []
  stackUp := 0
  stackReduced := 0
  retChan := []
  mezz2x := 0
  retireFull := false
  galHole := []
  retired := []
  xltInv := none
  xltCache := []
  gated := []
  gateKeep := []
  writers := []
  engErr := 0
  strQ := []
  strRun := []
  upkQ := []
  upkRun := []
  topQ := []
  topRun := []
  pdn := []
  srf := []
  rowErr := []
  spareUsed := []
  copying := []
  repairRows := []

/-- The routing entry of the module's own node (R248): valid, out0 18, part_mask 0xFFFF. -/
def ownEntry : W64 := 0xA40000000000FFFF

/-- The router at reset: one entry, of the node that the straps name (R248, R266). -/
def Router.reset : Router := ⟨0xFF, [(0xFF, ownEntry)], [], [], [], [], [], 0, []⟩

def Nic.reset : Nic where
  ctxCfg := []
  ctr := []
  cqProd := []
  held := []
  trig := []
  dq := []
  items := []
  itemNext := 0
  resend := []
  flows := []
  expq := []
  waitq := []
  txq := []
  acks := []
  expFilter := []
  expOut := 0
  expTo := []
  expIn := 0
  expBudget := 8
  expAlloc := []
  insts := []
  vest := []
  doneInst := []
  contribWait := []
  heldAtomics := []
  faddLog := []
  repro := 0
  stopped := false

/-- Rack time after reset: UNLOCKED, the count from 0 (R29). -/
def Tim.reset : Tim where
  now := 0
  count := 0
  state := .unlocked
  okRun := 0
  badRun := 0
  slew := 0
  slewAcc := 0
  learn := []
  frac := 0
  lockedNs := 0
  everLocked := false
  lastEst := 0
  lastPulse := none
  estPresent := false
  pulseHeld := false
  pulseAbsent := false
  pulseLevel := false
  backwardHold := false
  backwardBy := 0
  expressWithdrawn := true
  windowsUnaligned := true
  alignDue := false
  expWin := 0
  powWin := 0
  telWin := 0
  master := false
  masterValid := false
  portValid := 0
  ports := []
  evt := 0
  sched := []

def Ports.reset : Ports := ⟨[], [], []⟩

/-- The settings of R370 at their defaults. -/
def PwrSet.default : PwrSet where
  pplWindow := 2
  pplW := 2400
  railW := 1600
  railE := 1600
  brakePct := 50
  lostCapPct := 60
  boost := true
  ffMhz := 0
  floorW := 0
  rampW := 0
  tjC := 95
  coolant := 0

def Gal.reset : Gal := ⟨[], 60, 72, 16, false, false, 0, 0⟩

def Cool.reset : Cool where
  inletDc := none
  outletDc := none
  sensors := []
  coolantHot := false
  flowGood := false
  flowRun := 0
  flowStopped := false
  leakReading := 2
  wetRun := 0
  faultRun := 0
  dryRun := 0
  leakFault := false
  leakLatched := false
  flowWritten := none
  balanceSuspended := true
  balanceRun := 0
  failing := []
  sensingDegraded := false
  sensingCause := 0

def Supply.reset : Supply where
  inputMv := 0
  inputHist := []
  marginal := false
  enMem := false
  enMain := false
  enMainEarly := false
  memRails := .off
  mainRails := .off
  memSince := 0
  okUs := 0
  enRearm := false
  supplyHold := false
  stopRail := 0
  stopCause := 0
  tripLatched := false
  pwrOffReq := false
  brakePin := false

def Limits.reset : Limits where
  eff := .default
  limit := 2400
  lostCap := false
  sensOn := false
  brake := false
  ceiling := 60
  duty := 16
  dutyW := 16
  dutyE := 16
  ballast := 0
  lo := 0
  hi := 0
  capUnreachable := false
  floorCapped := false
  floorShort := false
  ffSuspended := false
  ffCause := 0
  rampBound := false
  railBoundW := false
  railBoundE := false
  pplBound := false
  boundNow := false
  boundPrev := false
  ballastUsed := false
  highNow := false
  heldBrake := false
  heldPpl := false
  heldRamp := false
  recent := []
  tight := false
  hist := []
  drawW := 0
  evt := 0

def Pwr.reset : Pwr := ⟨.reset, .reset, .reset, [], [], 0, 0, 0⟩

/-- Reset state: the AON domain has just come up and power-on reset is held. -/
def Rst.reset : Rst where
  aon := true
  held := true
  sysPinLow := false
  perstLow := false
  prsntLow := false
  seated := false
  removed := false
  clocksStopped := false
  step := 0
  refLocked := false
  refLost := false
  cause := 1
  failedStarts := 0
  incarnation := 0
  phase := 0
  hold := 0
  failCause := 0
  failPhase := 0
  startAt := 0
  startMs := none
  lastStartMs := 0
  cold := true
  trial := false
  topoOk := false
  withdraw := none
  coreBusy := false
  hangPending := false

def ScrubReport.none : ScrubReport := ⟨0, 0, 0, 0, 0, 0, 0, 0, 0⟩

def Health.reset : Health where
  state := .off
  degraded := 0
  landState := []
  lmap := []
  landingsEnabled := 0
  defects := []
  defectsNow := []
  defectSeq := 0
  defectInc := 0
  defectLost := false
  retirePending := 0
  coreResets := []
  sysResets := []
  oosMark := false
  removalMark := false
  scrub := none
  fills := []
  report := .none
  scrubbed := []
  portAdmitted := []
  portAdmitStored := []
  trained := false

/-- The landing slots enabled on an EZK4-96-8S: the lowest eight of each gallery (log entry 8). -/
def enabled96 : BitVec 104 :=
  let nine : Nat := 0b011111111
  let four : Nat := nine + nine * 2 ^ 9 + nine * 2 ^ 18 + nine * 2 ^ 27 + 0xFF * 2 ^ 36 + 0xFF * 2 ^ 44
  BitVec.ofNat 104 (four + four * 2 ^ 52)

def Fuses.reset : Fuses where
  grade := 96
  landingEnable := enabled96
  galleryFull := 0x0FFF
  laneBad := 0
  stackChanBad := 0
  mezzRepaired := 0
  boardSlot := 3
  trayId := 63
  serial := []

def Kmd.reset : Kmd where
  objs := []
  blobs := []
  keys := []
  lastCtr := 0
  txCtr := 1
  ctlMac := none
  answers := []
  xfer := none
  sent := []
  ev := []
  evNext := 1
  evLost := 0
  pendState := 0
  pendSince := 0
  stateSince := 0
  lastHb := 0
  hbAt := 0
  mgmtLost := false
  telemetry := []
  overSent := false
  quietUntil := 0
  plcaNode := 4
  mac := 0

def Fw.reset : Fw where
  flash := []
  progd := []
  bufs := []
  job := none
  active := 0
  previous := 1
  trial := 0
  trialRan := false
  running := 0
  secFuse := 0
  revoked := 0
  stState := 0
  stResult := 0
  stVersion := 0
  stagedBytes := 0
  error := false
  lastResult := 0
  lastCmd := 0
  irq := false
  copying := false
  confirmUntil := none
  fallbackCnt := 0
  cfgVer := 0
  cfgOld := none
  cfgObjs := []
  cfgBlobs := []
  migration := 0
  readData := []

def Hif.reset : Hif where
  err := 0
  scrubBusy := false
  win := []
  rings := []
  readyNext := 0
  d3hot := false
  linkUp := false
  speed := 0
  width := 0
  flit := false
  msixAddr := []
  msixData := []
  msixMask := []
  pba := []
  out := []
  latch := []

def LockStep.reset : LockStep where
  state := 0
  endCause := 0
  localDetect := false
  partner := 0xFFFF
  ctx := 0
  kernel := 0
  rank := 0
  bundle := 0
  seq := 0
  va := 0
  own := 0
  theirs := 0
  mine := []
  recv := []
  tileSeq := []

def Jtag.reset : Jtag := ⟨0x01, 0, 0⟩

def Pins.reset : Pins := ⟨3, 63, false⟩

def Dev.reset : Dev where
  lnd := []
  memc := .reset
  rtr := .reset
  nic := .reset
  tim := .reset
  ports := .reset
  pwr := .reset
  rst := .reset
  health := .reset
  fuses := .reset
  kmd := .reset
  fw := .reset
  hif := .reset
  ls := .reset
  jtag := .reset
  pins := .reset
  cnt := []
  regs := []
  freeCtr := 0

/-- The state after reset. -/
def State.reset : State := ⟨.reset, .reset, []⟩

end Sys2Proof.Machine
end

