-- ==== Sys2Proof/Machine/Ops.lean ====
section
/-! DEFINITION. The named operations every family shares: counters, objects, stamps, events, interrupts, and the
selection of READY and DEGRADED. -/

namespace Sys2Proof.Machine

/-! ### Register blocks (R539) -/

def hifBase : Nat := 0
def timBase : Nat := 0x20000
def rstBase : Nat := 0x30000
def pwrBase : Nat := 0x40000
def memBase : Nat := 0x50000
def dbgBase : Nat := 0x60000
def rtrBase : Nat := 0x80000
def prtBase (p : Nat) : Nat := 0x90000 + 0x400 * p
def nicBase : Nat := 0x100000
def galBase (g : Nat) : Nat := 0x200000 + 0x1000 * g
def lndBase (l : Nat) : Nat := 0x400000 + 0x1000 * l
def fltBase (l : Nat) : Nat := 0x500000 + 0x1000 * l

/-- Where the counters that only the dictionary shows are kept: beyond BAR0. -/
def objCnt (key : Nat) : Nat := 0x100000000 + key

/-! ### Counters (R15) -/

/-- A counter's value. -/
def cntGet (d : Dev) (off : Nat) : W64 := spGet 0 d.cnt off

/-- A counter grown by `n`, saturating at all ones (R15). -/
def cntAdd (off n : Nat) (d : Dev) : Dev :=
  { d with cnt := spMod 0 off (fun v => BitVec.ofNat 64 (satAdd (2 ^ 64 - 1) v.toNat n)) d.cnt }

/-- A counter grown by 1. -/
def cntInc (off : Nat) (d : Dev) : Dev := cntAdd off 1 d

/-- A counter grown by 1 where a condition holds. -/
def cntIf (b : Bool) (off : Nat) (d : Dev) : Dev := if b then cntInc off d else d

/-- The counters from `lo` to below `hi` cleared. -/
def cntClear (lo hi : Nat) (d : Dev) : Dev :=
  { d with cnt := spErase (fun k => decide (lo ≤ k ∧ k < hi)) d.cnt }

/-- A plain register. -/
def regGet (d : Dev) (off : Nat) : W64 := spGet 0 d.regs off

def regPut (off : Nat) (v : W64) (d : Dev) : Dev := { d with regs := spPut 0 off v d.regs }

/-- The plain registers from `lo` to below `hi` reset to 0. -/
def regClear (lo hi : Nat) (d : Dev) : Dev :=
  { d with regs := spErase (fun k => decide (lo ≤ k ∧ k < hi)) d.regs }

/-- A writable scalar object: the value written, or its default. -/
def objGet (d : Dev) (key : Nat) : Nat := (spGet (BitVec.ofNat 64 (objDefault key)) d.kmd.objs key).toNat

def objPut (key v : Nat) (d : Dev) : Dev :=
  { d with kmd := { d.kmd with
      objs := spPut (BitVec.ofNat 64 (objDefault key)) key (BitVec.ofNat 64 v) d.kmd.objs } }

/-- A writable BLOB object: the bytes written, or its default. -/
def blobGet (d : Dev) (key : Nat) (dflt : List Byte) : List Byte :=
  let b := spGet [] d.kmd.blobs key
  if b.isEmpty then dflt else b

def blobPut (key : Nat) (b : List Byte) (d : Dev) : Dev :=
  { d with kmd := { d.kmd with blobs := spPut [] key b d.kmd.blobs } }

/-- A free value: the next draw of the opaque constant, and the counter moved on (log entry 6). -/
def drawFree (d : Dev) : W64 × Dev := (Config.freeValue d.freeCtr, { d with freeCtr := d.freeCtr + 1 })

/-! ### Module state -/

/-- The number of a module state (R507). -/
def MState.code : MState → Nat
  | .off => 0 | .start => 1 | .ready => 2 | .degraded => 3 | .quiesced => 4 | .maint => 5 | .recovery => 6
  | .outOfService => 7

/-- The hub uncore and the HMP are out of reset (R419 step 3). -/
def hmpUp (d : Dev) : Bool := decide (3 ≤ d.rst.step)

/-- READY or DEGRADED. -/
def isUp (d : Dev) : Bool := hmpUp d && (d.health.state == .ready || d.health.state == .degraded)

/-- READY, DEGRADED, QUIESCED or MAINT. -/
def isAdmitted (d : Dev) : Bool :=
  isUp d || (hmpUp d && (d.health.state == .quiesced || d.health.state == .maint))

/-- A running start or an admitted module: the blocks beside AON, HMP and the ports of management are out of reset. -/
def isLive (d : Dev) : Bool := isAdmitted d || (hmpUp d && d.health.state == .start)

/-- The hub uncore is out of reset and its clock runs (R366, R419). -/
def hubUp (d : Dev) : Bool := d.rst.aon && decide (3 ≤ d.rst.step) && !d.rst.clocksStopped

/-- What a block's clock drives: nothing while the module stands stopped (R366, R391, R395, R460). -/
def clocked (f : State → State) (s : State) : State := if s.dev.rst.clocksStopped then s else f s

/-- EXTEST is in force: the module sees each digital LS input as the boundary register holds it (R575). -/
def extestOn (d : Dev) : Bool := d.jtag.ir == 0

/-- The endpoint is out of reset, in a state in which its link trains (R419, R533). -/
def hifUp (d : Dev) : Bool :=
  hubUp d && decide (4 ≤ d.rst.step) && !d.rst.perstLow && !([.off, .recovery, .outOfService].contains d.health.state)

/-- A command of the host, which the endpoint takes while it is out of reset (R533). -/
def fromHost (f : State → State) (s : State) : State := if hifUp s.dev then f s else s

/-! ### Rack-time bound and stamps (R36, R42, R53) -/

def LockState.code : LockState → Nat
  | .unlocked => 0 | .acquiring => 1 | .locked => 2 | .holdover => 3 | .lost => 4

/-- Drift allowed in holdover, in ns a second (R36, R38). -/
def driftRate (t : Tim) : Nat := if 2 ^ 30 ≤ t.lockedNs then 200 else 1000

/-- Holdover elapsed: since the last valid estimate or valid pulse edge, whichever came later (R36). -/
def holdElapsed (t : Tim) : Nat := t.now - max t.lastEst (t.lastPulse.getD 0)

/-- The error bound in units of 10^-9 ns; none where no bound is promised (R36, R42). -/
def errBound (t : Tim) : Option Nat :=
  match t.state with
  | .locked => some (4 * 10 ^ 9)
  | .holdover =>
    if t.pulseHeld then some ((10 + t.slew.natAbs) * 10 ^ 9)
    else
      let base := match t.lastPulse with
        | some p => if t.lastEst ≤ p then 10 else 4
        | none => 4
      some (base * 10 ^ 9 + driftRate t * holdElapsed t)
  | _ => none

/-- The bound in whole ns, rounded up (R36). -/
def errBoundNs (t : Tim) : Option Nat := (errBound t).map (fun b => ceilDiv b (10 ^ 9))

/-- The bound is within the Express tolerance of 28 ns (R40). -/
def boundInForce (t : Tim) : Bool :=
  match errBound t with
  | some b => decide (b ≤ 28 * 10 ^ 9)
  | none => false

/-- Time quality (R53). -/
def timeQuality (t : Tim) : Nat :=
  match t.state with
  | .locked => 0
  | .holdover => if boundInForce t then 1 else 2
  | .lost => 3
  | .acquiring => 4
  | .unlocked => 5

/-- Deadlines are suspended outside LOCKED and HOLDOVER (R47, R48). -/
def deadlinesSuspended (t : Tim) : Bool :=
  match t.state with
  | .locked => false
  | .holdover => false
  | _ => true

/-- TIM_STATUS (R57). -/
def timStatus (t : Tim) : W32 :=
  let eb := match errBoundNs t with
    | some b => min b 255
    | none => 255
  BitVec.ofNat 32 (eb * 2 ^ 24 + t.portValid.toNat * 2 ^ 18 + b2n t.master * 2 ^ 17 + b2n t.masterValid * 2 ^ 16 +
    b2n t.backwardHold * 2 ^ 8 + b2n (deadlinesSuspended t) * 2 ^ 7 + b2n t.pulseHeld * 2 ^ 6 +
    b2n t.windowsUnaligned * 2 ^ 5 + b2n t.expressWithdrawn * 2 ^ 4 + t.state.code)

/-! ### Interrupts (R554) -/

/-- A vector fires: its message goes to the host, or it stays pending while masked. -/
def fireVec (v : Nat) (d : Dev) : Dev :=
  if d.hif.linkUp && !(spGet true d.hif.msixMask v) then
    { d with hif := { d.hif with
        out := snoc d.hif.out (.msix v (spGet 0 d.hif.msixAddr v) (spGet 0 d.hif.msixData v)) } }
  else { d with hif := { d.hif with pba := nsInsert v d.hif.pba } }

/-- A bit of HIF_ERR set; vector 0 fires when it becomes 1 (R555). -/
def hifErrBit (b : Nat) (d : Dev) : Dev :=
  if d.hif.err.getLsbD b then d
  else fireVec 0 { d with hif := { d.hif with err := setField d.hif.err b 1 1 } }

/-- HIF_ERR.last_slot and last_ring (R555). -/
def hifErrWhere (slot ring : Nat) (d : Dev) : Dev :=
  { d with hif := { d.hif with err := setField (setField d.hif.err 24 5 slot) 29 3 ring } }

/-- A bit of TIM_EVT set; vector 1 fires when it becomes 1 (R58). -/
def timEvtBit (b : Nat) (d : Dev) : Dev :=
  if d.tim.evt.getLsbD b then d
  else fireVec 1 { d with tim := { d.tim with evt := setField d.tim.evt b 1 1 } }

/-- A bit of PWR_EVT set; vector 2 fires when it becomes 1. -/
def pwrEvtBit (b : Nat) (d : Dev) : Dev :=
  if d.pwr.lim.evt.getLsbD b then d
  else fireVec 2 { d with pwr := { d.pwr with lim := { d.pwr.lim with evt := setField d.pwr.lim.evt b 1 1 } } }

/-! ### Frames the module sends (R490, R491, R494) -/

/-- A frame of the module's own: its incarnation, its own counter, its tag (R493, R494), zero padding to the Ethernet
minimum. -/
def sendFrame (dst : BitVec 48) (mtype key reqId : Nat) (body : List Byte) (d : Dev) : Dev :=
  let head := beBytes 6 dst.toNat ++ beBytes 6 d.kmd.mac.toNat ++ beBytes 2 (objGet d 0x101001) ++
    [1, BitVec.ofNat 8 mtype, BitVec.ofNat 8 key, 0] ++ leBytes 4 d.rst.incarnation.toNat ++
    leBytes 8 d.kmd.txCtr.toNat ++ leBytes 2 reqId ++ leBytes 2 body.length ++ [0, 0, 0, 0]
  let l := head ++ body
  let f := l ++ (hmacSha256 (spGet [] d.kmd.keys key) l).take 16
  { d with kmd := { d.kmd with txCtr := d.kmd.txCtr + 1,
                               sent := snoc d.kmd.sent (f ++ List.replicate (60 - f.length) (0 : Byte)) } }

/-- The key slot of frames that answer no request: 0 when it holds a key, 1 otherwise (R494). -/
def ownKey (d : Dev) : Nat := if (spGet [] d.kmd.keys 0).isEmpty then 1 else 0

/-- The 32 bytes of an event record (R503). -/
def EvRec.bytes (e : EvRec) : List Byte :=
  leBytes 4 e.seq ++ leBytes 2 e.code ++ leBytes 2 e.unit ++ leBytes 8 e.stamp.toNat ++
    [BitVec.ofNat 8 e.quality, BitVec.ofNat 8 e.state, 0, 0] ++ leBytes 8 e.detail.toNat ++ [0, 0, 0, 0]

/-- An EVENT frame of kind 0 with at most 32 records, to the controller once its address is known (R502, R504). -/
def sendEvents (recs : List EvRec) (d : Dev) : Dev :=
  match d.kmd.ctlMac with
  | none => d
  | some m =>
    let l := recs.take 32
    let d' := sendFrame m 5 (ownKey d) 0
      ([0, BitVec.ofNat 8 l.length, 0, 0] ++ leBytes 4 d.kmd.evLost ++ (l.map EvRec.bytes).flatten) d
    { d' with kmd := { d'.kmd with evLost := 0 } }

/-- An event: a record with the present stamp in the buffer of 64 and a frame with it; an event that finds the buffer
full is counted lost (R503, R504). With the HMP not running nothing is recorded. -/
def emit (code unit : Nat) (detail : W64) (d : Dev) : Dev :=
  if d.health.state == .off then d
  else
    let e : EvRec := ⟨d.kmd.evNext, code, unit, d.tim.count, timeQuality d.tim, d.health.state.code, detail⟩
    let d := { d with kmd := { d.kmd with evNext := d.kmd.evNext + 1 } }
    if d.kmd.ev.length < 64 then sendEvents [e] { d with kmd := { d.kmd with ev := snoc d.kmd.ev e } }
    else cntInc (objCnt 0x103004) { d with kmd := { d.kmd with evLost := d.kmd.evLost + 1 } }

/-- A move to another module state: state_since and event 0x1001 (R508). -/
def setState (m : MState) (d : Dev) : Dev :=
  if d.health.state == m then d
  else
    let old := d.health.state.code
    let d := { d with health := { d.health with state := m }, kmd := { d.kmd with stateSince := d.tim.count } }
    emit 0x1001 0 (BitVec.ofNat 64 (old + 256 * m.code)) d

/-- degraded_causes selects between READY and DEGRADED (R507, R508). -/
def settleState (d : Dev) : Dev :=
  match d.health.state with
  | .ready => if d.health.degraded = 0 then d else setState .degraded d
  | .degraded => if d.health.degraded = 0 then setState .ready d else d
  | _ => d

/-- A bit of degraded_causes follows its condition; a change sends event 0x1003 (R451). -/
def setDegraded (b : Nat) (v : Bool) (d : Dev) : Dev :=
  if d.health.degraded.getLsbD b = v then d
  else
    let old := d.health.degraded
    let new := setField old b 1 (b2n v)
    settleState (emit 0x1003 0 (BitVec.ofNat 64 (new.toNat + old.toNat * 2 ^ 32))
      { d with health := { d.health with degraded := new } })

/-- A new entry of the defect list (R430 to R432): the list of 8,192 entries, or for the present start only. -/
def addDefect (kind origin unit : Nat) (detail : W64) (d : Dev) : Dev :=
  if d.health.defects.length < 8192 then
    { d with health := { d.health with
        defects := snoc d.health.defects ⟨kind, origin, unit, d.rst.incarnation, detail⟩
        defectSeq := d.health.defectSeq + 1
        defectInc := d.rst.incarnation } }
  else { d with health := { d.health with defectsNow := snoc d.health.defectsNow ⟨kind, origin, unit, d.rst.incarnation, detail⟩ } }

/-! ### Landings -/

/-- A landing. -/
def lndGet (d : Dev) (l : Nat) : Landing := spGet Landing.reset d.lnd l

def lndPut (l : Nat) (x : Landing) (d : Dev) : Dev := { d with lnd := spPut Landing.reset l x d.lnd }

def lndMod (l : Nat) (f : Landing → Landing) (d : Dev) : Dev := lndPut l (f (lndGet d l)) d

/-- Physical slots of a gallery: the first and the number of them (R20). -/
def gallerySlots (g : Nat) : Nat × Nat :=
  let h := g / 6
  let i := g % 6
  if i < 4 then (52 * h + 9 * i, 9) else (52 * h + 36 + 8 * (i - 4), 8)

/-- The gallery of a physical slot (R20). -/
def galleryOf (l : Nat) : Nat :=
  let h := l / 52
  let i := l % 52
  6 * h + (if i < 36 then i / 9 else 4 + (i - 36) / 8)

/-- The clock, sensors and throttles of a gallery. -/
def galGet (d : Dev) (g : Nat) : Gal := spGet Gal.reset d.pwr.gal g

/-- The hall of a physical slot: 0 W, 1 E. -/
def hallOf (l : Nat) : Nat := l / 52

/-- The logical number of a physical slot, 0xFF where it has none (R8, R436). -/
def logicalOf (d : Dev) (l : Nat) : Nat := spGet 0xFF d.health.lmap l

/-- landing_state of a slot (R436): 1 where nothing is listed. -/
def landStateOf (d : Dev) (l : Nat) : Nat := spGet 1 d.health.landState l

/-- A landing runs. -/
def landUp (d : Dev) (l : Nat) : Bool := landStateOf d l == 0

/-- The physical slot of a logical number. -/
def physOf (d : Dev) (n : Nat) : Option Nat := (List.range 104).find? (fun l => logicalOf d l == n)

/-! ### Context slots (R358) -/

/-- NIC_CTX_CFG of a slot, 256 bits. -/
def ctxCfg (d : Dev) (n : Nat) : BitVec 256 := spGet 0 d.nic.ctxCfg n

/-- The slot holds an active context. -/
def ctxValid (d : Dev) (n : Nat) : Bool := (ctxCfg d n).getLsbD 255

/-- Context ID and generation, laid out as SR_CTX (R99): 16 times the ID plus the generation. -/
def ctxWord (d : Dev) (n : Nat) : Nat := fieldN (ctxCfg d n) 249 238 * 16 + fieldN (ctxCfg d n) 237 234

def ctxPartition (d : Dev) (n : Nat) : Nat := fieldN (ctxCfg d n) 253 250

/-- The valid slot of a context ID and generation. -/
def slotOf (d : Dev) (cw : Nat) : Option Nat := (List.range 32).find? (fun n => ctxValid d n && ctxWord d n == cw)

/-- The valid slot of a context ID. -/
def slotOfId (d : Dev) (id : Nat) : Option Nat :=
  (List.range 32).find? (fun n => ctxValid d n && ctxWord d n / 16 == id)

/-- A counter belongs to a slot's context (R325). -/
def ctrOwned (d : Dev) (n c : Nat) : Bool :=
  let b := fieldN (ctxCfg d n) 233 222
  ctxValid d n && decide (b ≤ c ∧ c < b + fieldN (ctxCfg d n) 221 209)

/-- The slot that owns a counter. -/
def ctrOwner (d : Dev) (c : Nat) : Option Nat := (List.range 32).find? (fun n => ctrOwned d n c)

/-- A counter of the NIC. -/
def ctrGet (d : Dev) (c : Nat) : Ctr := spGet ⟨0, false⟩ d.nic.ctr c

def ctrPut (c : Nat) (v : Ctr) (d : Dev) : Dev :=
  { d with nic := { d.nic with ctr := spPut ⟨0, false⟩ c v d.nic.ctr } }

/-- A ring of the host interface. -/
def ringDefault : Ring := ⟨0, 0, 0, 0, 0, 0, [], none⟩

def ringGet (d : Dev) (slot ring : Nat) : Ring := spGet ringDefault d.hif.rings (8 * slot + ring)

def ringPut (slot ring : Nat) (r : Ring) (d : Dev) : Dev :=
  { d with hif := { d.hif with rings := spPut ringDefault (8 * slot + ring) r d.hif.rings } }

/-- The kernel a ring runs has started and not completed. -/
def kernelRuns (d : Dev) (slot : Nat) : Bool :=
  (List.range 8).any (fun r =>
    match (ringGet d slot r).run with
    | some k => k.desc.extractLsb' 0 8 == 0
    | none => false)

end Sys2Proof.Machine
end

