-- ==== Sys2Proof/Machine/Cells.lean ====
section
/-! DEFINITION. The layout of cells and their payloads (R238, R240, R296). -/

namespace Sys2Proof.Machine

/-- The 128-bit header of a cell (R238). -/
def cellHeader (c : Cell) : BitVec 128 :=
  c.dst ++ c.src ++ c.cls ++ c.op ++ c.ctx ++ c.gen ++ c.seq ++ c.hops ++ c.counter ++ c.len ++ c.offset ++
    BitVec.ofBool c.last ++ BitVec.ofBool c.poison ++ BitVec.ofBool c.bounce ++ BitVec.ofBool c.replay ++
    BitVec.ofBool c.k3

/-- The cell of a header and a payload (R238). -/
def cellOf (h : BitVec 128) (payload : BitVec 512) : Cell where
  dst := h.extractLsb' 116 12
  src := h.extractLsb' 104 12
  cls := h.extractLsb' 102 2
  op := h.extractLsb' 96 6
  ctx := h.extractLsb' 84 12
  gen := h.extractLsb' 80 4
  seq := h.extractLsb' 64 16
  hops := h.extractLsb' 58 6
  counter := h.extractLsb' 46 12
  len := h.extractLsb' 40 6
  offset := h.extractLsb' 5 35
  last := h.getLsbD 4
  poison := h.getLsbD 3
  bounce := h.getLsbD 2
  replay := h.getLsbD 1
  k3 := h.getLsbD 0
  payload := payload

/-- A payload from its first bytes, the others 0. -/
def payloadOf (l : List Byte) : BitVec 512 := BitVec.ofNat 512 (leNat l)

/-- Byte `i` of a payload. -/
def payByte (c : Cell) (i : Nat) : Byte := byteOf c.payload i

/-- Bytes `i` to `i + n - 1` of a payload. -/
def payBytes (c : Cell) (i n : Nat) : List Byte := (List.range n).map (fun j => payByte c (i + j))

/-- A little-endian number in a payload. -/
def payNat (c : Cell) (i n : Nat) : Nat := leNat (payBytes c i n)

/-- A payload with byte `i` replaced. -/
def setPayByte (p : BitVec 512) (i : Nat) (b : Byte) : BitVec 512 := setField p (8 * i) 8 b.toNat

/-- A cell with every field 0. -/
def cellZero : Cell := ⟨0, 0, 0, 0, 0, 0, 0, 0, 0, 0, 0, false, false, false, false, false, 0⟩

/-- Context and generation as SR_CTX. -/
def cellCtx (c : Cell) : Nat := c.ctx.toNat * 16 + c.gen.toNat

/-- The check sum of a k3 cell: over the header with hops, replay and bounce 0, then payload bytes 0 to 59 (R296). -/
def k3Crc (c : Cell) : W32 :=
  let h := cellHeader { c with hops := 0, replay := false, bounce := false }
  crc32 (leBytes 16 h.toNat ++ payBytes c 0 60)

/-- A k3 cell with its check sum in bytes 60 to 63 (R296). -/
def k3Seal (c : Cell) : Cell :=
  if c.k3 then
    let c := { c with payload := setField c.payload 480 32 0 }
    { c with payload := setField c.payload 480 32 (k3Crc c).toNat }
  else c

/-- The position byte of a WRITE_PART: byte 63, or 59 in a k3 cell (R240, R296). -/
def posByte (c : Cell) : Nat := if c.k3 then 59 else 63

end Sys2Proof.Machine
end

