-- ==== Sys2Proof/Machine/MemOps.lean ====
section
/-! DEFINITION. The physical address map, interleave regions, granule reads and writes, poison and cold marks, errors
and page retirement, and translation (R168 to R185, R199 to R208). -/

namespace Sys2Proof.Machine

/-! ### The map (R170) -/

/-- What a physical address reaches (R170, R171). -/
inductive Tier where
  | stack
  | mezz
  | gallery (g : Nat)
  | store (s : Nat)
  | control
  | board (b : Nat)
  | rack (w : Nat)
  | hole
  deriving DecidableEq, Repr

/-- The range of R170 that holds an address; stack holes are found through the regions. -/
def tierOf (pa : Nat) : Tier :=
  if pa < 0x010000000000 then .stack
  else if pa < 0x011000000000 then .mezz
  else if 0x020000000000 ≤ pa ∧ pa < 0x02000C000000 then .gallery ((pa - 0x020000000000) / 0x1000000)
  else if 0x021000000000 ≤ pa ∧ pa < 0x021000000000 + 104 * 0x200000 then .store ((pa - 0x021000000000) / 0x200000)
  else if 0x030000000000 ≤ pa ∧ pa < 0x030100000000 then .control
  else if 0x100000000000 ≤ pa ∧ pa < 0x500000000000 then
    (if pa % 0x100000000000 < 0x020000000000 then .board (pa / 0x100000000000 - 1) else .hole)
  else if 0x800000000000 ≤ pa ∧ pa < 0x1000000000000 then .rack ((pa - 0x800000000000) / 0x020000000000)
  else .hole

/-- Stack or mezzanine memory. -/
def tierDram (t : Tier) : Bool :=
  match t with
  | .stack => true
  | .mezz => true
  | _ => false

/-- A board or rack window. -/
def tierWindow (t : Tier) : Bool :=
  match t with
  | .board _ => true
  | .rack _ => true
  | _ => false

/-- One of the four module tiers. -/
def tierModule (t : Tier) : Bool :=
  match t with
  | .stack => true
  | .mezz => true
  | .gallery _ => true
  | .store _ => true
  | _ => false

/-- The number of a store: slot s as s, gallery g as 104 + g. -/
def storeNo (t : Tier) : Option Nat :=
  match t with
  | .store s => some s
  | .gallery g => some (104 + g)
  | _ => none

/-- First address of a landing store (R170). -/
def storeBase (l : Nat) : Nat := 0x021000000000 + l * 0x200000

/-- First address of a gallery store (R170). -/
def galleryBase (g : Nat) : Nat := 0x020000000000 + g * 0x1000000

/-- First address and bytes of a store by its number. -/
def storeSpan (n : Nat) : Nat × Nat := if n < 104 then (storeBase n, 0x200000) else (galleryBase (n - 104), 0x1000000)

/-! ### Interleave regions (R176, R177) -/

def ilvValid (r : W64) : Bool := r.getLsbD 0
def ilvBase (r : W64) : Nat := fieldN r 63 54 * 2 ^ 30
def ilvSize (r : W64) : Nat := (fieldN r 53 44 + 1) * 2 ^ 30
def ilvWays (r : W64) : Nat := 2 ^ fieldN r 43 42
def ilvFirst (r : W64) : Nat := fieldN r 41 39
def ilvStackBase (r : W64) : Nat := fieldN r 38 29 * 2 ^ 27

/-- The region covers an address. -/
def ilvCovers (r : W64) (pa : Nat) : Bool := ilvValid r && decide (ilvBase r ≤ pa ∧ pa < ilvBase r + ilvSize r)

/-- Stack and stack-local offset of an address in a region (R176). -/
def ilvPlace (r : W64) (pa : Nat) : Nat × Nat :=
  let o := pa - ilvBase r
  let g := o / 4096
  (ilvFirst r + g % ilvWays r, ilvStackBase r + g / ilvWays r * 4096 + o % 4096)

/-- Capacity of a stack in bytes (R175). -/
def stackCap (d : Dev) (s : Nat) : Nat :=
  if !(d.memc.stackUp.getLsbD s) then 0
  else if d.memc.stackReduced.getLsbD s then 120 * 2 ^ 30 else 128 * 2 ^ 30

/-- The range a region takes in each of its stacks. -/
def ilvStackEnd (r : W64) : Nat := ilvStackBase r + ilvSize r / ilvWays r

/-- Two ranges share no address. -/
def apart (a b c e : Nat) : Bool := decide (b ≤ c ∨ e ≤ a)

/-- Two regions of a set do not collide (R177). -/
def ilvPairOk (r q : W64) : Bool :=
  apart (ilvBase r) (ilvBase r + ilvSize r) (ilvBase q) (ilvBase q + ilvSize q) &&
  (decide (ilvFirst r + ilvWays r ≤ ilvFirst q ∨ ilvFirst q + ilvWays q ≤ ilvFirst r) ||
   apart (ilvStackBase r) (ilvStackEnd r) (ilvStackBase q) (ilvStackEnd q))

/-- Every pair of a list. -/
def allPairs {α : Type} (f : α → α → Bool) : List α → Bool
  | [] => true
  | a :: t => t.all (f a) && allPairs f t

/-- A region set is valid (R177). -/
def ilvSetOk (d : Dev) (l : List W64) : Bool :=
  let v := l.filter ilvValid
  v.all (fun r => fieldN r 28 1 == 0 && decide (ilvFirst r % ilvWays r = 0) &&
      decide (ilvBase r + ilvSize r ≤ 2 ^ 40) &&
      (List.range (ilvWays r)).all (fun i => decide (ilvStackEnd r ≤ stackCap d (ilvFirst r + i)))) &&
    allPairs ilvPairOk v

/-- A region entry. -/
def ilvEntry (base size ways first : Nat) : W64 :=
  let lg := if ways = 8 then 3 else if ways = 4 then 2 else if ways = 2 then 1 else 0
  BitVec.ofNat 64 (base * 2 ^ 54 + (size - 1) * 2 ^ 44 + lg * 2 ^ 42 + first * 2 ^ 39 + 1)

/-- Smallest capacity among stacks, in GiB. -/
def minCapGib (d : Dev) (first n : Nat) : Nat :=
  ((List.range n).map (fun i => stackCap d (first + i) / 2 ^ 30)).foldl min 1024

/-- The groups of stacks the start forms: first stack and ways (R177). -/
def ilvGroups (d : Dev) : List (Nat × Nat) :=
  let up (s : Nat) : Bool := d.memc.stackUp.getLsbD s
  let all (f n : Nat) : Bool := (List.range n).all (fun i => up (f + i))
  if all 0 8 then [(0, 8)]
  else [0, 4].flatMap (fun q =>
    if all q 4 then [(q, 4)]
    else [q, q + 2].flatMap (fun p =>
      if all p 2 then [(p, 2)] else [p, p + 1].filterMap (fun s => if up s then some (s, 1) else none)))

/-- Entries of consecutive groups from a base in GiB. -/
def ilvLay (d : Dev) : Nat → List (Nat × Nat) → List W64
  | _, [] => []
  | b, (f, n) :: t =>
    let sz := n * minCapGib d f n
    ilvEntry b sz n f :: ilvLay d (b + sz) t

/-- The region set of a start, 16 entries (R177). -/
def ilvDefault (d : Dev) : List W64 :=
  let l := ilvLay d 0 (ilvGroups d)
  l ++ List.replicate (16 - l.length) 0

/-- The storage key of a physical address in module memory; none at a hole. -/
def keyOf (d : Dev) (pa : Nat) : Option Nat :=
  match tierOf pa with
  | .stack =>
    match d.memc.ilv.find? (fun r => ilvCovers r pa) with
    | some r => let p := ilvPlace r pa; some (p.1 * 2 ^ 37 + p.2)
    | none => none
  | .mezz => some pa
  | .gallery g => if d.memc.galHole.contains g then none else some pa
  | .store _ => some pa
  | _ => none

/-- The DRAM channel of a storage key and the number of its 256-byte block in the channel (R175, R179): a stack on 15
channels takes its working channels in ascending order. -/
def chanBlock (d : Dev) (key : Nat) : Option (Nat × Nat) :=
  if key < 2 ^ 40 then
    let s := key / 2 ^ 37
    let q := key % 2 ^ 37 / 256
    if d.memc.stackReduced.getLsbD s then
      let i := q % 15
      some (16 * s + (if i < spGet 16 d.memc.retChan s then i else i + 1), q / 15)
    else some (16 * s + q % 16, q / 16)
  else if key < 0x011000000000 then
    let h := (key - 2 ^ 40) / 0x0800000000
    let q := (key - 2 ^ 40) % 0x0800000000 / 256
    some (128 + 32 * h + q % 32, q / 32)
  else none

/-- The DRAM channel of a storage key. -/
def chanOf (d : Dev) (key : Nat) : Option Nat := (chanBlock d key).map (·.1)

/-- The landing store at an address belongs to a disabled or retired slot (R171). -/
def deadStore (d : Dev) (pa : Nat) : Bool :=
  match tierOf pa with
  | .store n => !(landUp d n)
  | _ => false

/-- A range reaches into a landing store of a disabled or retired slot. -/
def deadRange (d : Dev) (pa n : Nat) : Bool :=
  match tierOf pa, tierOf (pa + n - 1) with
  | .store a, .store b => (List.range (b + 1 - a)).any (fun i => !(landUp d (a + i)))
  | _, _ => false

/-- The first address of a range of stack memory that no region covers; `k` bounds the regions it crosses. -/
def stackHole (d : Dev) : Nat → Nat → Nat → Option Nat
  | 0, pa, _ => some pa
  | k + 1, pa, n =>
    match d.memc.ilv.find? (fun r => ilvCovers r pa) with
    | none => some pa
    | some r =>
      let m := ilvBase r + ilvSize r - pa
      if n ≤ m then none else stackHole d k (pa + m) (n - m)

/-- The first address of a range within one tier that is a hole (R171): stack memory outside the regions, a gallery
store out of service. -/
def firstHole (d : Dev) (pa n : Nat) : Option Nat :=
  match tierOf pa, tierOf (pa + n - 1) with
  | .stack, _ => stackHole d 17 pa n
  | .gallery a, .gallery b =>
    ((List.range (b + 1 - a)).find? (fun i => d.memc.galHole.contains (a + i))).map
      (fun i => max pa (galleryBase (a + i)))
  | _, _ => none

/-! ### Bytes -/

/-- The byte at a key; an unlisted byte reads 0. -/
def Memory.byte (m : Memory) (k : Nat) : Byte := spGet 0 m.bytes k

def Memory.putByte (m : Memory) (k : Nat) (b : Byte) : Memory := { m with bytes := spPut 0 k b m.bytes }

/-- Bytes at consecutive keys, where an element is none a byte is kept. -/
def Memory.putBytes : Memory → Nat → List (Option Byte) → Memory
  | m, _, [] => m
  | m, k, none :: t => Memory.putBytes m (k + 1) t
  | m, k, some b :: t => Memory.putBytes (m.putByte k b) (k + 1) t

/-- The 64 bytes of granule `g`. -/
def Memory.gran (m : Memory) (g : Nat) : List Byte := (List.range 64).map (fun i => m.byte (64 * g + i))

def Memory.setPoison (m : Memory) (g : Nat) (v : Bool) : Memory :=
  { m with poison := if v then nsInsert g m.poison else nsErase g m.poison }

def Memory.setWarm (m : Memory) (g : Nat) : Memory := { m with warm := nsInsert g m.warm }

/-- Every byte and mark of the keys from `lo` to below `hi` taken away: bytes 0, no poison, cold (R204, R207). -/
def Memory.clear (m : Memory) (lo hi : Nat) : Memory where
  bytes := spErase (fun k => decide (lo ≤ k ∧ k < hi)) m.bytes
  poison := m.poison.filter (fun g => !decide (lo ≤ 64 * g ∧ 64 * g < hi))
  warm := m.warm.filter (fun g => !decide (lo ≤ 64 * g ∧ 64 * g < hi))

/-- The canonical form of memory: keys rising, no listed byte 0, marks rising. -/
def Memory.wf (m : Memory) : Bool := spWf 0 m.bytes && nsSorted 0 m.poison && nsSorted 0 m.warm

/-- A write into one granule: its bytes, and poison that only a write of all 64 bytes clears (R169, R202). -/
def Memory.writeGran (m : Memory) (g : Nat) (bs : List (Option Byte)) (poison store : Bool) : Memory :=
  let m := m.putBytes (64 * g) bs
  let full := decide (bs.length = 64) && bs.all Option.isSome
  let m := if poison then m.setPoison g true else if full then m.setPoison g false else m
  if store then m.setWarm g else m

/-! ### Granule accesses -/

/-- What a granule read gives. -/
inductive GSt where
  | ok | poison | cold | hole
  deriving DecidableEq, Repr

/-- A retired page holds the address (R201). -/
def pageRetired (d : Dev) (pa : Nat) : Bool := d.memc.retired.contains (alignDown pa 4096)

/-- The state and bytes of the granule that holds an address, as a read sees it: the store of a disabled or retired slot
and a retired page read as poison (R21, R201). -/
def granAt (s : State) (pa : Nat) : GSt × List Byte :=
  match keyOf s.dev pa with
  | none => (.hole, List.replicate 64 0)
  | some k =>
    let g := k / 64
    let b := s.mem.gran g
    if deadStore s.dev pa || pageRetired s.dev pa then (.poison, b)
    else if (storeNo (tierOf pa)).isSome && !(s.mem.warm.contains g) then (.cold, b)
    else if s.mem.poison.contains g then (.poison, b)
    else (.ok, b)

/-- An access wakes what it reaches: its DRAM channel (R205) or a gated store (R206, R207). -/
def touch (pa : Nat) (d : Dev) : Dev :=
  match storeNo (tierOf pa) with
  | some n => { d with memc := { d.memc with gated := nsErase n d.memc.gated, gateKeep := spPut none n none d.memc.gateKeep } }
  | none =>
    match (keyOf d pa).bind (chanOf d) with
    | some c =>
      let d := cntIf (d.memc.srf.contains c) (memBase + 0x468) d
      { d with memc := { d.memc with pdn := nsErase c d.memc.pdn, srf := nsErase c d.memc.srf } }
    | none => d

/-- The idle periods of the stores that follow a landing end: it starts a kernel (R206, R216). -/
def gateIdleEnds (l : Nat) (d : Dev) : Dev :=
  { d with memc := { d.memc with gateKeep := spPut none l none (spPut none (104 + galleryOf l) none d.memc.gateKeep) } }

/-- A granule read: the counters of poison and cold reads (R202, R207). -/
def readGran (s : State) (pa : Nat) : GSt × List Byte × State :=
  let d := touch pa s.dev
  let (st, b) := granAt s pa
  let d := match st with
    | .poison => cntInc (memBase + 0x448) d
    | .cold => cntInc (memBase + 0x450) d
    | _ => d
  (st, b, { s with dev := d })

/-- A granule write for a context slot: dropped at a retired page (R201), with the writer mask of a store (R208). -/
def writeGranAt (pa : Nat) (bs : List (Option Byte)) (poison : Bool) (slot : Option Nat) (s : State) : State :=
  match keyOf s.dev pa with
  | none => s
  | some k =>
    let d := touch pa s.dev
    if pageRetired d pa then { s with dev := cntInc (memBase + 0x440) d }
    else
      let st := storeNo (tierOf pa)
      let d := match st, slot with
        | some n, some c =>
          { d with memc := { d.memc with writers := spMod 0 n (fun w => setField w c 1 1) d.memc.writers } }
        | _, _ => d
      { s with mem := s.mem.writeGran (k / 64) (bs) poison st.isSome, dev := d }

/-- The part of a byte list that falls into one granule: the write of `bytes` at `pa` seen from granule `i` of its
span. -/
def granPart (pa : Nat) (bytes : List (Option Byte)) (i : Nat) : List (Option Byte) :=
  let g := pa / 64 + i
  (List.range 64).map (fun j =>
    let a := 64 * g + j
    if a < pa then none else (bytes[a - pa]?).join)

/-- Granules that a range of `n` bytes touches. -/
def granCount (pa n : Nat) : Nat := if n = 0 then 0 else (pa + n - 1) / 64 - pa / 64 + 1

/-- A write of bytes at consecutive addresses, one granule write after the other; granules without a byte to write are
left alone. -/
def writeBytes (pa : Nat) (bytes : List (Option Byte)) (poison : Bool) (slot : Option Nat) (s : State) : State :=
  (List.range (granCount pa bytes.length)).foldl (fun s i =>
    let p := granPart pa bytes i
    if p.any Option.isSome then writeGranAt (64 * (pa / 64 + i)) p poison slot s else s) s

/-- Granules made poison (R92, R202): all bytes kept. -/
def poisonRange (pa n : Nat) (slot : Option Nat) (s : State) : State :=
  (List.range (granCount pa n)).foldl (fun s i =>
    writeGranAt (64 * (pa / 64 + i)) (List.replicate 64 none) true slot s) s

/-- What a read of a range found: its bytes, and the lowest granule that is poisoned or cold. -/
structure RangeRead where
  bytes : List Byte
  bad : Option (Nat × GSt)
  poison : Bool
  deriving DecidableEq, Repr

/-- A read of `n` bytes at `pa`, granule by granule, every granule counted. -/
def readRange (s : State) (pa n : Nat) : RangeRead × State :=
  let (r, s) := (List.range (granCount pa n)).foldl (fun (acc : RangeRead × State) i =>
    let a := 64 * (pa / 64 + i)
    let (st, b, s) := readGran acc.2 a
    let bad := match acc.1.bad, st with
      | some x, _ => some x
      | none, .ok => none
      | none, x => some (a, x)
    (⟨acc.1.bytes ++ b, bad, acc.1.poison || decide (st ≠ .ok)⟩, s)) (⟨[], none, false⟩, s)
  (⟨(r.bytes.drop (pa % 64)).take n, r.bad, r.poison⟩, s)

/-- The bytes of a range as memory holds them, without counting. -/
def peekBytes (s : State) (pa n : Nat) : List Byte :=
  (List.range n).map (fun i =>
    match keyOf s.dev (pa + i) with
    | some k => s.mem.byte k
    | none => 0)

/-- A store made cold: contents, marks and writer mask go (R207, R208). -/
def coldStore (n : Nat) (s : State) : State :=
  let sp := storeSpan n
  { s with
    mem := s.mem.clear sp.1 (sp.1 + sp.2)
    dev := { s.dev with memc := { s.dev.memc with writers := spPut 0 n 0 s.dev.memc.writers } } }

/-- A store holds a granule that is not cold. -/
def storeWarm (m : Memory) (n : Nat) : Bool :=
  let sp := storeSpan n
  m.warm.any (fun g => decide (sp.1 ≤ 64 * g ∧ 64 * g < sp.1 + sp.2))

/-- Every store made cold. -/
def coldAll (s : State) : State :=
  { s with mem := s.mem.clear 0x020000000000 0x030000000000
           dev := { s.dev with memc := { s.dev.memc with writers := [] } } }

/-! ### Errors (R199 to R201) -/

/-- A page retired by a phase or in the field: listed and recorded, or the list is full (R201, R430). -/
def retirePageBy (origin pa : Nat) (d : Dev) : Dev :=
  let p := alignDown pa 4096
  if d.memc.retired.contains p then d
  else if d.memc.retired.length < 4096 then
    let d := addDefect 0x06 origin 0 (BitVec.ofNat 64 p) (cntInc (memBase + 0x438)
      { d with memc := { d.memc with retired := snoc d.memc.retired p } })
    if d.memc.retired.length < 4096 then d
    else setDegraded 3 true (emit 0x5002 0 0 { d with memc := { d.memc with retireFull := true } })
  else d

/-- A page retired in the field. -/
def retirePage (pa : Nat) (d : Dev) : Dev := retirePageBy 5 pa d

/-- An uncorrectable error found in the granule at `pa` (R199). -/
def uncorrectable (pa : Nat) (s : State) : State :=
  match keyOf s.dev pa with
  | none => s
  | some k =>
    let t := tierOf pa
    let off := match t with
      | .mezz => 0x408
      | .stack => 0x418
      | _ => 0x428
    let d := emit 0x5001 0 (BitVec.ofNat 64 pa) (cntInc (memBase + off) s.dev)
    let d := if tierDram t then retirePage pa d else d
    { s with mem := s.mem.setPoison (k / 64) true, dev := d }

/-- The channel and row of a DRAM storage key: 2 KiB of a channel are a row (log entry 9). -/
def rowOf (d : Dev) (key : Nat) : Nat × Nat :=
  let p := (chanBlock d key).getD (0, 0)
  (p.1, p.2 / 8)

/-- The 4 KiB pages with a granule in a row of mezzanine channel `c` (R200). -/
def rowPages (c row : Nat) : List Nat :=
  let h := (c - 128) / 32
  (List.range 8).map (fun j => alignDown (2 ^ 40 + h * 0x0800000000 + ((8 * row + j) * 32 + c % 32) * 256) 4096)

/-- Spare rows of a bank that are used or being filled (R200). -/
def sparesTaken (d : Dev) (bank : Nat) : Nat :=
  spGet 0 d.memc.spareUsed bank + (d.memc.copying.filter (fun k => k / 2 ^ 48 == bank)).length

/-- Every page of a mezzanine row that no spare row is left for is retired (R200). -/
def retireRow (origin c row : Nat) (d : Dev) : Dev := (rowPages c row).foldl (fun d p => retirePageBy origin p d) d

/-- A correctable error at `pa`: corrected and counted; the third in a row within 24 h spares a mezzanine row or
records a stack row (R199, R200). -/
def correctable (pa : Nat) (d : Dev) : Dev :=
  match keyOf d pa with
  | none => d
  | some k =>
    let t := tierOf pa
    let off := match t with
      | .mezz => 0x400
      | .stack => 0x410
      | _ => 0x420
    let d := cntInc (memBase + off) d
    if !(tierDram t) then d
    else
      let (c, row) := rowOf d k
      let rk := c * 2 ^ 48 + row
      let near := (spGet [] d.memc.rowErr rk).filter (fun t => decide (d.tim.now < t + 86400 * 10 ^ 9))
      if near.length < 2 then { d with memc := { d.memc with rowErr := spPut [] rk (snoc near d.tim.now) d.memc.rowErr } }
      else
        let d := { d with memc := { d.memc with rowErr := spPut [] rk [] d.memc.rowErr } }
        match t with
        | .stack =>
          if d.memc.repairRows.contains rk then d
          else addDefect 0x05 5 c (BitVec.ofNat 64 (row % 2 ^ 32))
            { d with memc := { d.memc with repairRows := snoc d.memc.repairRows rk } }
        | _ =>
          if d.memc.copying.contains rk then d
          else if sparesTaken d c < 8 then { d with memc := { d.memc with copying := nsInsert rk d.memc.copying } }
          else retireRow 5 c row d

/-! ### Translation (R181 to R184) -/

/-- Why a translation fails. -/
inductive XltFail where
  | unmapped | perm | poison
  deriving DecidableEq, Repr

/-- A leaf found for an address: physical page, page size, and rights. -/
structure Leaf where
  pa : Nat
  size : Nat
  r : Bool
  w : Bool
  deriving DecidableEq, Repr

/-- The page of a leaf at a level: 4 KiB, 2 MiB, 1 GiB (R181). -/
def levelSize (level : Nat) : Nat := 2 ^ (12 + 9 * level)

/-- A page lies wholly in one range of R170 that a leaf may map, without a hole or the control space (R183). -/
def pageOk (d : Dev) (pa size : Nat) : Bool :=
  let a := tierOf pa
  let z := tierOf (pa + size - 1)
  let same := match a, z with
    | .stack, .stack => (firstHole d pa size).isNone
    | .mezz, .mezz => decide (pa / 0x0800000000 = (pa + size - 1) / 0x0800000000)
    | .gallery g, .gallery h => decide (g = h) && (firstHole d pa size).isNone
    | .store g, .store h => decide (g = h)
    | .board g, .board h => decide (g = h)
    | .rack g, .rack h => decide (g = h)
    | _, _ => false
  same

/-- A table lies wholly in stack or mezzanine memory (R181, R183). -/
def tableOk (d : Dev) (pa : Nat) : Bool := tierDram (tierOf pa) && (keyOf d pa).isSome

/-- An entry's meaning at a level: invalid, a pointer, or a leaf (R182, R183). -/
inductive XltKind where
  | invalid
  | table (pa : Nat)
  | leaf (l : Leaf)
  deriving DecidableEq, Repr

def xltKind (d : Dev) (level : Nat) (e : W64) : XltKind :=
  let pa := fieldN e 47 12 * 4096
  let r := e.getLsbD 2
  let w := e.getLsbD 3
  if !(e.getLsbD 0) || fieldN e 63 48 != 0 || fieldN e 11 4 != 0 then .invalid
  else if e.getLsbD 1 then
    let size := levelSize level
    if level = 3 || (w && !r) || pa % size != 0 || !(pageOk d pa size) then .invalid
    else .leaf ⟨pa, size, r, w⟩
  else if level = 0 || r || w || !(tableOk d pa) then .invalid
  else .table pa

/-- The outcome of a walk: the leaf with its entry and level, and the state after the reads of the tables. -/
def walk : Nat → Nat → Nat → State → (Except XltFail (Leaf × Nat × W64)) × State
  | 0, _, _, s => (.error .unmapped, s)
  | n + 1, table, va, s =>
    let a := table + 8 * (va / levelSize n % 512)
    let (r, s) := readRange s a 8
    if r.poison then (.error .poison, s)
    else
      let e : W64 := BitVec.ofNat 64 (leNat r.bytes)
      match xltKind s.dev n e with
      | .invalid => (.error .unmapped, s)
      | .leaf l => (.ok (l, n, e), s)
      | .table t => walk n t va s

/-- The root register of a slot (R213). -/
def xltRoot (d : Dev) (slot : Nat) : W64 := regGet d (memBase + 0x100 + 8 * slot)

/-- The cached leaf of an address (R185). -/
def cached (d : Dev) (slot va : Nat) : Option (Leaf × Nat × W64) :=
  match d.memc.xltCache.find? (fun e => e.slot == slot && e.vpn == va / levelSize e.level) with
  | none => none
  | some e =>
    some (⟨fieldN e.entry 47 12 * 4096, levelSize e.level, e.entry.getLsbD 2, e.entry.getLsbD 3⟩, e.level, e.entry)

/-- The leaf for an address of a slot: from the cache, or by a walk whose leaf is then cached (R181 to R185). -/
def leafFor (s : State) (slot va : Nat) : (Except XltFail Leaf) × State :=
  if 2 ^ 48 ≤ va then (.error .unmapped, s)
  else
    match cached s.dev slot va with
    | some (l, _, _) => (.ok l, s)
    | none =>
      let root := xltRoot s.dev slot
      let pa := fieldN root 47 12 * 4096
      let s := { s with dev := cntInc (memBase + 0x470) s.dev }
      if !(root.getLsbD 0) || !(tableOk s.dev pa) then (.error .unmapped, s)
      else
        let (r, s) := walk 4 pa va s
        match r with
        | .error e => (.error e, s)
        | .ok (l, n, e) =>
          (.ok l, { s with dev := { s.dev with memc := { s.dev.memc with
              xltCache := ⟨slot, n, va / levelSize n, e⟩ :: s.dev.memc.xltCache } } })

/-- The physical address of one address, with the right it needs (R183). -/
def xlate1 (s : State) (slot va : Nat) (wr : Bool) : (Except XltFail (Nat × Leaf)) × State :=
  let (r, s) := leafFor s slot va
  match r with
  | .error e => (.error e, s)
  | .ok l =>
    if (if wr then l.w else l.r) then (.ok (l.pa + va % l.size, l), s) else (.error .perm, s)

/-- The rest of a range after its first page: each further page must continue the physical range (R184). The bound is
in pages of 4 KiB; a larger page takes one step. Pages crossed are counted. A failure names the first address of the
range in the failing page (log entry 79). -/
def xlateRest : Nat → State → Nat → Nat → Nat → Nat → Bool → Nat → (Except (XltFail × Nat) Nat) × State
  | 0, s, _, _, _, _, _, c => (.ok c, s)
  | n + 1, s, slot, va, pa, len, wr, c =>
    if len = 0 then (.ok c, s)
    else
      let (r, s) := xlate1 s slot va wr
      match r with
      | .error e => (.error (e, va), s)
      | .ok (p, l) =>
        if p ≠ pa then (.error (.perm, va), s)
        else
          let m := min len (l.size - va % l.size)
          xlateRest n s slot (va + m) (pa + m) (len - m) wr (c + 1)

/-- Two addresses lie in one tier of R168, or in one window: landing stores are one tier, and so are gallery stores. -/
def sameTier (a z : Tier) : Bool :=
  match a, z with
  | .gallery _, .gallery _ => true
  | .store _, .store _ => true
  | _, _ => a == z

/-- A range translated: its physical address and the page boundaries it crosses, or the failure with its address. The
range must map to one contiguous physical range in one tier (R184), and no part of it may be a hole, which a cached leaf
may still name (R171, R185). -/
def xlateRange (s : State) (slot va len : Nat) (wr : Bool) : (Except (XltFail × Nat) (Nat × Nat)) × State :=
  let (r, s) := xlate1 s slot va wr
  match r with
  | .error e => (.error (e, va), s)
  | .ok (pa, l) =>
    let m := min len (l.size - va % l.size)
    let (r, s) := xlateRest (len / 4096 + 1) s slot (va + m) (pa + m) (len - m) wr 0
    match r with
    | .error e => (.error e, s)
    | .ok c =>
      if len = 0 then (.ok (pa, c), s)
      else if !(sameTier (tierOf pa) (tierOf (pa + len - 1))) then (.error (.perm, va), s)
      else
        match firstHole s.dev pa len with
        | some h => (.error (.unmapped, va + (h - pa)), s)
        | none => (.ok (pa, c), s)

end Sys2Proof.Machine
end

