-- ==== Sys2Proof/Machine/NicBase.lean ====
section
/-! DEFINITION. What every command of the network interface shares: sending cells, the resend store, Express release,
counters with their triggers, completion records, and posting a descriptor. -/

namespace Sys2Proof.Machine

/-! ### Sending (R242, R243, R252, R262) -/

/-- The routing entry of a node (R247). -/
def routeEntry (d : Dev) (n : Nat) : W64 := spGet 0 d.rtr.table n

/-- Node `n` is a K3 module (R296). -/
def k3Node (d : Dev) (n : Nat) : Bool :=
  ((blobGet d 0x440004 [])[n / 8]?.getD 0).getLsbD (n % 8)

/-- A port at its reset value. -/
def portDefault : Port where
  st := .disabled
  lanes := 0
  retired := 0
  width := 0
  k3 := false
  cause := 0
  ident := none
  heldId := none
  owner := false
  protected_ := false
  evt := 0
  trigNow := false
  trigPrev := false
  txSeq := 0
  retry := []
  rxAck := 0xFFFF
  links := []
  replayReq := none
  ack := 0xFFFF
  beyond := []
  highest := 0xFFFF
  nak := 0xFFFF
  goodRun := 0
  credit := 0
  badUnits := 0
  retryRun := 0
  laneState := []
  mirror := []
  mirrorAck := 0xFFFF
  acctWin := 0
  acctNow := 0
  acctPrev := 0
  identAt := none
  owed := 0
  rxPhase := 0
  withheld := none
  lastIn := none
  half := 0
  txPhase := 0
  sent := none
  line := []

def portGet (d : Dev) (p : Nat) : Port := spGet portDefault d.ports.port p

def portPut (p : Nat) (x : Port) (d : Dev) : Dev :=
  { d with ports := { d.ports with port := spPut portDefault p x d.ports.port } }

def portMod (p : Nat) (f : Port → Port) (d : Dev) : Dev := portPut p (f (portGet d p)) d

/-- A port is up for cells: ACTIVE and not removed by DEPART (R250, R256). -/
def portUp (d : Dev) (p : Nat) : Bool :=
  (portGet d p).st == .active && !(d.rtr.removed.contains p)

/-- The other port of a fail-over pair (R299). -/
def pairOf (p : Nat) : Nat := if p % 2 = 0 then p + 1 else p - 1

/-- The output an Express cell for an entry leaves on now: the named port, the owner of its pair, or port 18 from the own
node's entry (R247, R251). -/
def expPort (d : Dev) (e : W64) : Option Nat :=
  let o := fieldN e 50 46
  if !(e.getLsbD 63) || !(e.getLsbD 45) then none
  else if o = 18 then some o
  else if 16 ≤ o then none
  else if 6 ≤ o ∧ o ≤ 11 then
    if (portGet d o).owner then some o else if (portGet d (pairOf o)).owner then some (pairOf o) else none
  else some o

/-- A port of a fail-over pair that can take part in it: up and native (R303, R306). -/
def expMember (d : Dev) (p : Nat) : Bool := portUp d p && !(portGet d p).k3

/-- Express may leave for a node, now or when a port of its pair claims: cells wait for the claim while a port of the pair
is ACTIVE (R262, R303). -/
def expRoute (d : Dev) (n : Nat) : Bool :=
  let e := routeEntry d n
  let o := fieldN e 50 46
  if !(e.getLsbD 63) || !(e.getLsbD 45) then false
  else if o = 18 then true
  else if 6 ≤ o ∧ o ≤ 11 then expMember d o || expMember d (pairOf o)
  else decide (o < 16) && portUp d o

/-- The ops that take a sequence number (R242). -/
def opNumbered (op : Nat) : Bool :=
  decide ((1 ≤ op ∧ op ≤ 5) ∨ op = 8 ∨ op = 10 ∨ (0x10 ≤ op ∧ op ≤ 0x12))

/-- The ops allowed in class 0 (R240). -/
def opExpress (op : Nat) : Bool := decide ((1 ≤ op ∧ op ≤ 5) ∨ op = 0x18)

/-- The next sequence number of a flow, and the flow advanced (R242). -/
def takeSeq (dst ctx gen : Nat) (d : Dev) : Nat × Dev :=
  match d.nic.flows.find? (fun f => f.dst == dst && f.ctx == ctx && f.gen == gen) with
  | some f => (f.next, { d with nic := { d.nic with flows := d.nic.flows.map (fun g =>
      if g = f then { g with next := (g.next + 1) % 2 ^ 16 } else g) } })
  | none => (0, { d with nic := { d.nic with flows := snoc d.nic.flows ⟨dst, ctx, gen, 1⟩ } })

/-- Capacity of the resend store (R243). -/
def resendCap : Nat := 32768

/-- A cell goes to the router's NIC port (R270). -/
def injectCell (c : Cell) (d : Dev) : Dev :=
  { d with nic := { d.nic with txq := snoc d.nic.txq c } }

/-- The cell is a resend of one the store holds (R254, R297, R347). -/
def OutCell.again (o : OutCell) : Bool := decide (o.resends ≠ 0 ∨ o.early ≠ 0 ∨ o.k3sends ≠ 0)

/-- A formed cell is sent and kept in the resend store, or waits while the store is full; a cell without an answer is
not kept, and a resend has its place there (R243). -/
def sendOut (o : OutCell) (d : Dev) : Dev :=
  if o.again then injectCell o.cell d
  else if d.nic.resend.length < resendCap then
    injectCell o.cell (if opNumbered o.cell.op.toNat then
      { d with nic := { d.nic with resend := snoc d.nic.resend o } } else d)
  else { d with nic := { d.nic with waitq := snoc d.nic.waitq o } }

/-- Cells that waited move up as the resend store has room. -/
def drainWait : Nat → Dev → Dev
  | 0, d => d
  | n + 1, d =>
    match d.nic.waitq with
    | [] => d
    | o :: t =>
      if d.nic.resend.length < resendCap then
        drainWait n (sendOut o { d with nic := { d.nic with waitq := t } })
      else d

/-- Allocation a(d) of Express cells to a node (R262). -/
def expAlloc (d : Dev) (n : Nat) : Nat := (d.nic.expAlloc[n]?.getD 0).toNat

/-- Express budget is left for a node in this window (R262). -/
def expRoom (d : Dev) (n : Nat) : Bool :=
  decide (d.nic.expOut < d.nic.expBudget) && decide (spGet 0 d.nic.expTo n < expAlloc d n)

/-- An Express cell released into the present window. -/
def expRelease (o : OutCell) (d : Dev) : Dev :=
  let n := o.cell.dst.toNat
  sendOut o { d with nic := { d.nic with expOut := d.nic.expOut + 1, expTo := spMod 0 n (· + 1) d.nic.expTo } }

/-- An Express cell is released where its window has budget, or waits in the Express queue (R262). -/
def expSend (o : OutCell) (d : Dev) : Dev :=
  if expRoom d o.cell.dst.toNat then expRelease o d
  else cntInc (nicBase + 0x888) { d with nic := { d.nic with expq := snoc d.nic.expq o } }

/-- A cell of this module: source, hops 63, sequence number, K3 mark and check sum; it is sent, held for an Express
window, or waits for the resend store. -/
def sendCell (c : Cell) (owner : CellOwner) (place : AnsPlace) (d : Dev) : Dev :=
  let (q, d) := if opNumbered c.op.toNat then takeSeq c.dst.toNat c.ctx.toNat c.gen.toNat d else (0, d)
  let c := k3Seal { c with
    src := d.rtr.node, hops := 63, seq := BitVec.ofNat 16 q, k3 := k3Node d c.dst.toNat }
  let o : OutCell := ⟨c, owner, place, 0, 0, false, 0, false⟩
  if c.cls = 0 then expSend o d else sendOut o d

/-- An answer or an ACK: sent at once, not kept, with the sequence number of its request (R242, R243). -/
def sendAnswer (c : Cell) (d : Dev) : Dev :=
  injectCell (k3Seal { c with src := d.rtr.node, hops := 63, k3 := k3Node d c.dst.toNat }) d

/-! ### Splitting bytes into cells (R296, R319, R320) -/

/-- Bytes of a write that one cell takes from position `g0` of a granule (R240, R296; log entry 20). -/
def writeTake (k3 : Bool) (g0 left : Nat) : Nat :=
  min left (if !k3 then 64 - g0 else if g0 = 0 then 60 else if g0 < 59 then 59 - g0 else 64 - g0)

/-- Bytes of a read that one cell asks for. -/
def readTake (k3 : Bool) (g0 left : Nat) : Nat := min left (min (if k3 then 60 else 64) (64 - g0))

/-- A range cut into pieces of address and length, each one cell. -/
def cellSpans (take : Nat → Nat → Nat) : Nat → Nat → Nat → List (Nat × Nat)
  | 0, _, _ => []
  | n + 1, a, left =>
    if left = 0 then []
    else
      let m := take (a % 64) left
      (a, m) :: cellSpans take n (a + m) (left - m)

def writeSpans (k3 : Bool) (a n : Nat) : List (Nat × Nat) := cellSpans (writeTake k3) n a n

def readSpans (k3 : Bool) (a n : Nat) : List (Nat × Nat) := cellSpans (readTake k3) n a n

/-- Runs of enabled bytes as offset and length. -/
def enRuns : Nat → List Bool → List (Nat × Nat)
  | _, [] => []
  | i, false :: t => enRuns (i + 1) t
  | i, true :: t =>
    match enRuns (i + 1) t with
    | (o, n) :: rest => if o = i + 1 then (i, n + 1) :: rest else (i, 1) :: (o, n) :: rest
    | [] => [(i, 1)]

/-- A write cell of bytes at a remote address: a WRITE from the first byte of its granule, a WRITE_PART otherwise, in
the counted form when it names a counter (R319). -/
def writeCell (cls dst cw a : Nat) (bytes : List Byte) (ctr : Option Nat) (last poison k3 : Bool) : Cell :=
  let p := a % 64
  let pay := payloadOf bytes
  let c : Cell := { cellZero with
    dst := BitVec.ofNat 12 dst, cls := BitVec.ofNat 2 cls, ctx := BitVec.ofNat 12 (cw / 16), gen := BitVec.ofNat 4 cw,
    op := BitVec.ofNat 6 ((if p = 0 then 1 else 3) + b2n ctr.isSome), counter := BitVec.ofNat 12 (ctr.getD 0),
    len := BitVec.ofNat 6 (bytes.length - 1), offset := BitVec.ofNat 35 (a / 64), last := last, poison := poison, k3 := k3 }
  { c with payload := if p = 0 then pay else setPayByte pay (posByte c) (BitVec.ofNat 8 p) }

/-- A GET_REQ for `n` bytes at a remote address, to be placed at a local one (R240, R320). -/
def getCell (cls dst cw a n ret : Nat) (last : Bool) : Cell :=
  { cellZero with
    dst := BitVec.ofNat 12 dst, cls := BitVec.ofNat 2 cls, ctx := BitVec.ofNat 12 (cw / 16), gen := BitVec.ofNat 4 cw,
    op := 8, len := BitVec.ofNat 6 (n - 1), offset := BitVec.ofNat 35 (a / 64), last := last,
    payload := payloadOf (leBytes 5 (ret / 64) ++ [BitVec.ofNat 8 (a % 64)]) }

/-! ### Completion records (R336, R337) -/

/-- What a completed descriptor reports. -/
structure Done where
  slot : Nat
  tag : W64
  status : Nat
  failStatus : Nat
  cause : Nat
  kind : Nat
  confirmed : Nat
  detail : Nat
  stamp : Bool
  lctr : Option Nat
  deriving DecidableEq, Repr

/-- The 32 bytes of a record (R336). -/
def recordOf (d : Dev) (x : Done) : BitVec 256 :=
  let info := timeQuality d.tim + b2n x.stamp * 8 + x.kind * 16
  BitVec.ofNat 256 (leNat (leBytes 8 x.tag.toNat ++ leBytes 1 x.status ++ leBytes 1 x.failStatus ++ leBytes 1 x.cause ++
    leBytes 1 info ++ leBytes 4 x.confirmed ++ leBytes 4 x.detail ++ leBytes 2 (ctxWord d x.slot) ++ [0, 0] ++
    leBytes 8 (if x.stamp then d.tim.count.toNat else 0)))

/-- Records in a slot's ring (R337). -/
def cqSize (d : Dev) (n : Nat) : Nat := 2 ^ (fieldN (ctxCfg d n) 179 176 + 6)

/-- The ring has room, judged from the consumer word alone (R337). -/
def cqRoom (s : State) (n : Nat) : Bool × State :=
  let (r, s) := readRange s (fieldN (ctxCfg s.dev n) 127 80) 8
  let prod := (spGet 0 s.dev.nic.cqProd n).toNat
  (!r.poison && decide ((prod + 2 ^ 64 - leNat r.bytes) % 2 ^ 64 < cqSize s.dev n), s)

/-- A record written at its entry (R337). -/
def writeRecord (n : Nat) (r : BitVec 256) (s : State) : State :=
  let prod := (spGet 0 s.dev.nic.cqProd n).toNat
  let pa := fieldN (ctxCfg s.dev n) 175 128 + 32 * (prod % cqSize s.dev n)
  let s := writeBytes pa ((leBytes 32 r.toNat).map some) false none s
  { s with dev := { s.dev with nic := { s.dev.nic with cqProd := spPut 0 n (BitVec.ofNat 64 (prod + 1)) s.dev.nic.cqProd } } }

/-- A change of a counter: an increment, an error flag, or both (R325). -/
structure CtrUpd where
  c : Nat
  add : Nat
  err : Bool
  deriving DecidableEq, Repr

/-- The statuses that set a local counter's error flag (R325). -/
def statusErr (st : Nat) : Bool := !(st == 0 || st == 5 || st == 9 || st == 10)

/-- A record written with the increment that follows it, or both held while the ring is full (R325, R337). -/
def postRecord (n : Nat) (h : HeldRec) (s : State) : State × List CtrUpd :=
  let held := spGet [] s.dev.nic.held n
  let (room, s) := cqRoom s n
  if room && held.isEmpty then
    (writeRecord n h.record s, match h.lctr with
      | some (c, e) => [⟨c, 1, e⟩]
      | none => [])
  else
    ({ s with dev := { s.dev with nic := { s.dev.nic with held := spPut [] n (snoc held h) s.dev.nic.held } } }, [])

/-- A descriptor completes: its record, and its local increment after it (R325, R336). -/
def complete (x : Done) (s : State) : State × List CtrUpd :=
  let d := cntIf (statusErr x.status) (nicBase + 0x908) s.dev
  postRecord x.slot ⟨recordOf d x, x.lctr.map (fun c => (c, statusErr x.status))⟩ { s with dev := d }

/-! ### Descriptor fields (R317, R331) -/

/-- A little-endian field of a descriptor: `n` bytes from byte `i`. -/
def dField (x : BitVec 512) (i n : Nat) : Nat := fieldN x (8 * (i + n) - 1) (8 * i)

def descOp (x : BitVec 512) : Nat := dField x 0 1
def descFlag (x : BitVec 512) (b : Nat) : Bool := x.getLsbD (8 + b)
def descClass (x : BitVec 512) : Nat := fieldN x 9 8
def descTag (x : BitVec 512) : W64 := x.extractLsb' 256 64

/-- A collective op. -/
def descColl (x : BitVec 512) : Bool := decide (0x10 ≤ descOp x)

/-- The local counter a descriptor enables (R317, R343). -/
def descLctr (x : BitVec 512) : Option Nat := if descFlag x 5 then some (dField x 6 2 % 4096) else none

/-- The remote counter a data descriptor enables. -/
def descRctr (x : BitVec 512) : Option Nat :=
  if !(descColl x) && descFlag x 4 then some (dField x 4 2 % 4096) else none

/-- The record kind of a descriptor op (R336). -/
def descKind (op : Nat) : Nat :=
  match op with
  | 1 => 0 | 2 => 1 | 3 => 2 | 4 => 3 | 0x10 => 4 | 0x11 => 5 | 0x12 => 6 | 0x13 => 7 | _ => 0

/-- An error notice: a poisoned NOTIFY to the remote counter in the descriptor's class (R327). -/
def errorNotice (slot cls dst rctr : Nat) (d : Dev) : Dev :=
  let cw := ctxWord d slot
  let c : Cell := { cellZero with
    dst := BitVec.ofNat 12 dst, cls := BitVec.ofNat 2 cls, op := 5, ctx := BitVec.ofNat 12 (cw / 16),
    gen := BitVec.ofNat 4 cw, counter := BitVec.ofNat 12 rctr, last := true, poison := true }
  cntInc (nicBase + 0x920) (sendCell c .notice .none d)

/-- Descriptors the queue holds (R314). -/
def dqCap : Nat := 4096

/-- A descriptor is accepted for the descriptor queue, where the first 4,096 have their places and the others wait for one,
in the order of acceptance (R314, R361; log entry 98). -/
def postDesc (e : DqEnt) (d : Dev) : Dev :=
  cntInc (nicBase + 0x900) { d with nic := { d.nic with dq := snoc d.nic.dq e } }

/-! ### Counters and triggers (R325, R328, R330) -/

/-- The firing condition of a trigger: threshold reached with the flag clear, or the flag set (R330). -/
def trigHolds (c : Ctr) (x : BitVec 512) : Bool := c.err || decide (dField x 58 6 ≤ c.val.toNat)

/-- The counter a trigger is armed on. -/
def trigCtr (x : BitVec 512) : Nat := dField x 56 2 % 4096

/-- A trigger fires: its slot is freed; its descriptor is queued as one of the kernel that armed it (R227), or it
completes with trigger_error (R330). -/
def fireTrig (t : TrigEnt) (err : Bool) (s : State) : State × List CtrUpd :=
  let d := { s.dev with nic := { s.dev.nic with trig := s.dev.nic.trig.filter (fun u => u != t) } }
  let d := cntInc (nicBase + 0x938) d
  if err then
    let d := cntInc (nicBase + 0x940) d
    let d := match descRctr t.desc with
      | some r => errorNotice t.slot (descClass t.desc) (dField t.desc 2 2 % 4096) r d
      | none => d
    complete ⟨t.slot, descTag t.desc, 0x0E, 0, 0xFF, descKind (descOp t.desc), 0, 0, descFlag t.desc 2,
      descLctr t.desc⟩ { s with dev := d }
  else ({ s with dev := postDesc ⟨t.slot, ⟨none, t.kernel, none⟩, none, t.desc, none⟩ d }, [])

/-- The triggers on a counter whose condition holds, in the order of arming. -/
def trigReady (d : Dev) (c : Nat) : List TrigEnt :=
  d.nic.trig.filter (fun t => trigCtr t.desc == c && trigHolds (ctrGet d c) t.desc)

/-- Every trigger of a list fires in turn; the updates they cause are gathered. -/
def fireAll (err : Bool) : List TrigEnt → State → State × List CtrUpd
  | [], s => (s, [])
  | t :: ts, s =>
    let (s, u) := fireTrig t err s
    let (s, v) := fireAll err ts s
    (s, u ++ v)

/-- A counter's new value (R325). -/
def ctrStep (u : CtrUpd) (c : Ctr) : Ctr :=
  ⟨BitVec.ofNat 48 (satAdd (2 ^ 48 - 1) c.val.toNat u.add), c.err || u.err⟩

/-- Counter updates one after another, each followed by the triggers it fires and their own updates (R328, R330). The
bound counts the updates still to come: each trigger fires once. -/
def ctrWork : Nat → List CtrUpd → State → State
  | 0, _, s => s
  | _ + 1, [], s => s
  | n + 1, u :: us, s =>
    let old := ctrGet s.dev u.c
    let new := ctrStep u old
    let d := cntIf (u.err && !old.err) (nicBase + 0x928) (ctrPut u.c new s.dev)
    let (s, more) := fireAll new.err (trigReady d u.c) { s with dev := d }
    ctrWork n (us ++ more) s

/-- Updates applied in order (R328). -/
def ctrUpdates (us : List CtrUpd) (s : State) : State :=
  ctrWork (us.length + s.dev.nic.trig.length + 1) us s

/-- A counter set with its flag clear or as given, and the check of its triggers (R325, R330). -/
def ctrSet (c : Nat) (v : Ctr) (s : State) : State :=
  let d := ctrPut c v s.dev
  let (s, more) := fireAll v.err (trigReady d c) { s with dev := d }
  ctrUpdates more s

/-- A descriptor completes with everything that follows from its local increment. -/
def finishDesc (x : Done) (s : State) : State :=
  let (s, us) := complete x s
  ctrUpdates us s

/-- A landing kernel's launch sequence number and context, as the source of what it posts. -/
def kernelOf (l : Landing) : Option (Nat × Nat) := some (l.kern.seq, l.kern.ctx)

end Sys2Proof.Machine
end

