-- ==== Sys2Proof/Machine/ScalarAlu.lean ====
section
/-! DEFINITION. The scalar unit's results (R70, R156). -/

namespace Sys2Proof.Machine

/-- An operand of a scalar operation: bits [31:0] alone with w32 (R156). -/
def w32In (w32 : Bool) (x : W64) : Nat := if w32 then x.toNat % 2 ^ 32 else x.toNat

/-- The signed value of an operand. -/
def w32Signed (w32 : Bool) (x : W64) : Int := if w32 then sOf 32 x.toNat else x.toInt

/-- A result: with w32 its low 32 bits sign-extended (R69, R156). -/
def w32Out (w32 : Bool) (x : Int) : W64 :=
  if w32 then (BitVec.ofInt 32 x).signExtend 64 else BitVec.ofInt 64 x

/-- A value an operation moves: with w32 its low 32 bits sign-extended (R69, R156). -/
def w32Val (w32 : Bool) (x : W64) : W64 := if w32 then (x.setWidth 32).signExtend 64 else x

/-- The address of a load or store: with w32 the sum of bits [31:0] alone, extended with zeros (R156; log entry 16). -/
def w32Addr (w32 : Bool) (a imm : W64) : Nat := if w32 then (a + imm).toNat % 2 ^ 32 else (a + imm).toNat

/-- The operation width. -/
def w32Bits (w32 : Bool) : Nat := if w32 then 32 else 64

/-- A shift count: bits [5:0], or [4:0] with w32 (R70). -/
def shiftCount (w32 : Bool) (b : W64) : Nat := b.toNat % w32Bits w32

/-- Signed quotient: truncation toward zero, all ones for divisor 0, the most negative value by -1 as itself (R70, R156). -/
def divS (w32 : Bool) (a b : W64) : W64 :=
  let y := w32Signed w32 b
  if y = 0 then w32Out w32 (-1) else w32Out w32 ((w32Signed w32 a).tdiv y)

/-- Signed remainder with the dividend's sign; the dividend for divisor 0 (R70, R156). -/
def remS (w32 : Bool) (a b : W64) : W64 :=
  let y := w32Signed w32 b
  if y = 0 then w32Out w32 (w32Signed w32 a) else w32Out w32 ((w32Signed w32 a).tmod y)

/-- Unsigned quotient; all ones for divisor 0 (R70). -/
def divU (w32 : Bool) (a b : W64) : W64 :=
  let y := w32In w32 b
  if y = 0 then w32Out w32 (-1) else w32Out w32 (w32In w32 a / y : Nat)

/-- Unsigned remainder; the dividend for divisor 0 (R70). -/
def remU (w32 : Bool) (a b : W64) : W64 :=
  let y := w32In w32 b
  if y = 0 then w32Out w32 (w32In w32 a) else w32Out w32 (w32In w32 a % y : Nat)

/-- The two-source scalar operations with a scalar result, by opcode (R70). -/
def aluResult (op : Nat) (w32 : Bool) (a b : W64) : W64 :=
  let s := w32Signed w32
  let u := w32In w32
  let o := w32Out w32
  match op with
  | 0x01 => o (a.toNat + b.toNat : Nat)
  | 0x02 => o ((a.toNat : Int) - b.toNat)
  | 0x03 => o (a &&& b).toNat
  | 0x04 => o (a ||| b).toNat
  | 0x05 => o (a ^^^ b).toNat
  | 0x06 => o (u a * 2 ^ shiftCount w32 b : Nat)
  | 0x07 => o (u a / 2 ^ shiftCount w32 b : Nat)
  | 0x08 => o (s a / (2 ^ shiftCount w32 b : Nat))
  | 0x09 => o (min (s a) (s b))
  | 0x0A => o (max (s a) (s b))
  | 0x0B => o (min (u a) (u b) : Nat)
  | 0x0C => o (max (u a) (u b) : Nat)
  | 0x10 => o (a.toNat * b.toNat : Nat)
  | 0x11 => o (s a * s b / (2 ^ w32Bits w32 : Nat))
  | 0x12 => o (u a * u b / 2 ^ w32Bits w32 : Nat)
  | 0x13 => divS w32 a b
  | 0x14 => divU w32 a b
  | 0x15 => remS w32 a b
  | 0x16 => remU w32 a b
  | _ => 0

/-- The compares peq, plt and pltu, by opcode (R70, R156). -/
def cmpResult (op : Nat) (w32 : Bool) (a b : W64) : Bool :=
  match op with
  | 0x0D => decide (w32In w32 a = w32In w32 b)
  | 0x0E => decide (w32Signed w32 a < w32Signed w32 b)
  | _ => decide (w32In w32 a < w32In w32 b)

/-- All 64 bits of a predicate at a compare's result (R70). -/
def predOf (b : Bool) : W64 := if b then BitVec.allOnes 64 else 0

/-- The latency of a scalar operation with a register result (R70). A divide takes from one cycle to its bound of 38,
22 with w32; which, the spec leaves open (log entry 12). -/
def aluLatency (op : Nat) (w32 : Bool) (a b : W64) : Nat :=
  if op = 0x10 ∨ op = 0x11 ∨ op = 0x12 then 3
  else if 0x13 ≤ op ∧ op ≤ 0x16 then 1 + Config.divCycles op w32 a b % (if w32 then 22 else 38)
  else 1

end Sys2Proof.Machine
end

