-- ==== Sys2Proof/Machine/Sfu.lean ====
section
/-! DEFINITION. The special-function unit (R154, R155): each function's exact value by fixed-point arithmetic far beyond
the format, the format values inside the error bound, and the unit's pick among them. -/

namespace Sys2Proof.Machine

/-- Fraction bits of the fixed-point arithmetic. -/
def sfuN : Nat := 640

/-- `y^k / k!` summed for `k` from `i`, with `t` the present term, in fixed point. -/
def expSeries : Nat → Nat → Nat → Nat → Nat
  | 0, _, _, _ => 0
  | n + 1, y, i, t => t + expSeries n y (i + 1) (t * y / 2 ^ sfuN / (i + 1))

/-- `e^y` for fixed-point `y` in [0, 1). -/
def fxExp (y : Nat) : Nat := expSeries 160 y 0 (2 ^ sfuN)

/-- `z^(2k+1) / (2k+1)` summed from `i = 2k+1`, with `t` the present power. -/
def atanhSeries : Nat → Nat → Nat → Nat → Nat
  | 0, _, _, _ => 0
  | n + 1, z2, i, t => t / i + atanhSeries n z2 (i + 2) (t * z2 / 2 ^ sfuN)

/-- `ln((1 + z) / (1 - z))` for fixed-point `z` in [0, 1/3]. -/
def fxLnRatio (z : Nat) : Nat := 2 * atanhSeries 220 (z * z / 2 ^ sfuN) 1 z

/-- `ln 2`. -/
def fxLn2 : Nat := fxLnRatio (2 ^ sfuN / 3)

/-- A dyadic value as fixed point, rounded down. -/
def dyToFx (d : Dy) : Int :=
  let k := d.e + sfuN
  if 0 ≤ k then shlI d.m k.toNat else d.m / (2 ^ (-k).toNat : Nat)

/-- `2^x` for fixed-point `x`. -/
def fxExp2 (x : Int) : Dy :=
  let one : Int := (2 ^ sfuN : Nat)
  let n := x / one
  ⟨fxExp ((x % one).toNat * fxLn2 / 2 ^ sfuN), n - sfuN⟩

/-- `e^x` for fixed-point `x`. -/
def fxExpE (x : Int) : Dy :=
  let n := x / fxLn2
  ⟨fxExp (x % fxLn2).toNat, n - sfuN⟩

/-- `log2` of a positive `m * 2^e`, in fixed point. -/
def fxLog2 (m : Nat) (e : Int) : Int :=
  let k := Nat.log2 m
  let num := m - 2 ^ k
  let z := num * 2 ^ sfuN / (m + 2 ^ k)
  (e + k) * (2 ^ sfuN : Nat) + (fxLnRatio z * 2 ^ sfuN / fxLn2 : Nat)

/-- Integer square root by bits from `2^(n-1)` down, starting from `r`. -/
def isqrtBits : Nat → Nat → Nat → Nat
  | 0, _, r => r
  | n + 1, x, r => if (r + 2 ^ n) * (r + 2 ^ n) ≤ x then isqrtBits n x (r + 2 ^ n) else isqrtBits n x r

/-- The quotient of two positive dyadic values, cut off at least `2 * sfuN` bits below its first bit with the remainder
kept as a last bit. -/
def dyQuot (a b : Dy) : Dy :=
  let k := 2 * sfuN + Nat.log2 b.m.natAbs + 1
  let n := a.m.natAbs * 2 ^ k
  let q := n / b.m.natAbs
  ⟨(2 * q + b2n (decide (n % b.m.natAbs ≠ 0)) : Nat), a.e - b.e - k - 1⟩

/-- `1/sqrt` of a positive `m * 2^e`. -/
def dyRsqrt (m : Nat) (e : Int) : Dy :=
  let (m, e) := if e % 2 = 0 then (m, e) else (2 * m, e - 1)
  let n := 2 ^ (2 * sfuN) / m
  ⟨(isqrtBits (sfuN + 1) n 0 : Nat), -(e / 2) - sfuN⟩

/-- The magnitude codes of a format within `b` half-units in the last place of the exact magnitude, no infinity and
none above `top`. -/
def codesWithin (f : FFmt) (b : Nat) (top : Nat) (d : Dy) : List Nat :=
  let c0 := roundCode f.p f.qmin .zero false d.m.natAbs d.e
  let q := max (d.e + (Nat.log2 d.m.natAbs : Int) + 1 - f.p) f.qmin
  let bound : Dy := ⟨b, q - 1⟩
  ((List.range 9).map (fun i => c0 + i)).filterMap (fun c4 =>
    if c4 < 4 then none else
    let c := c4 - 4
    let v := codeVal f.p f.qmin c
    let diff := dyAdd v ⟨-d.m, d.e⟩
    if c ≤ top ∧ c ≤ f.maxFin ∧ dyLt bound ⟨diff.m.natAbs, diff.e⟩ = false then some c else none)

/-- The code the unit gives: a pick from those inside the bound. -/
def sfuPick (fn ty x : Nat) (l : List Nat) : Nat := l.getD (Config.freeSfu fn ty x % l.length) 0

/-- The code of 1.0. -/
def FFmt.one (f : FFmt) : Nat := roundCode f.p f.qmin .nearest false 1 0

/-- A positive result of the unit: exact when `ex` holds and the format has it, else a pick inside the bound. -/
def sfuPos (f : FFmt) (fn ty x b top : Nat) (ex : Bool) (d : Dy) : Nat :=
  let c := roundCode f.p f.qmin .zero false d.m.natAbs d.e
  if ex && dyEq (codeVal f.p f.qmin c) d && decide (c ≤ f.maxFin) then c
  else sfuPick fn ty x (codesWithin f b top d)

/-- The largest argument magnitude that is not already at a function's limit. -/
def sfuClamp (d : Dy) : Int :=
  let lim : Int := shlI 4096 sfuN
  clampI (-lim) lim (dyToFx d)

/-- exp2 of a finite value. -/
def sfuExp2 (f : FFmt) (ty x : Nat) (d : Dy) : Nat :=
  let top : Int := if f = fp16 then 16 else 128
  if !(dyLt d ⟨top, 0⟩) then f.inf false else
  let fx := sfuClamp d
  let isInt := decide (fx % (2 ^ sfuN : Nat) = 0)
  sfuPos f 0 ty x 2 f.maxFin isInt (if isInt then ⟨1, fx / (2 ^ sfuN : Nat)⟩ else fxExp2 fx)

/-- log2 of a positive finite value. -/
def sfuLog2 (f : FFmt) (ty x m : Nat) (e : Int) : Nat :=
  let k := Nat.log2 m
  if m = 2 ^ k then f.round .nearest false ⟨e + k, 0⟩ else
  let v := fxLog2 m e
  b2n (decide (v < 0)) * f.sign + sfuPos f 1 ty x 2 f.maxFin false ⟨v.natAbs, -sfuN⟩

/-- rsqrt of a positive finite value. -/
def sfuRsqrt (f : FFmt) (ty x m : Nat) (e : Int) : Nat :=
  let k := Nat.log2 m
  if m = 2 ^ k ∧ (e + k) % 2 = 0 then sfuPos f 3 ty x 2 f.maxFin true ⟨1, -((e + k) / 2)⟩
  else sfuPos f 3 ty x 2 f.maxFin false (dyRsqrt m e)

/-- The error bound of sigmoid and tanh, in half-units in the last place (R154). -/
def sfuWide (f : FFmt) : Nat := if f = fp32 then 4 else 2

/-- sigmoid of a nonzero finite value. -/
def sfuSigmoid (f : FFmt) (ty x : Nat) (d : Dy) : Nat :=
  let en := fxExpE (-(sfuClamp d))
  sfuPos f 4 ty x (sfuWide f) f.one false (dyQuot ⟨1, 0⟩ (dyAdd ⟨1, 0⟩ en))

/-- tanh of a nonzero finite value. -/
def sfuTanh (f : FFmt) (ty x : Nat) (d : Dy) : Nat :=
  let neg := decide (d.m < 0)
  let fx := sfuClamp ⟨(d.m.natAbs : Int), d.e + 1⟩
  let ep := fxExpE fx
  b2n neg * f.sign +
    sfuPos f 5 ty x (sfuWide f) f.one false (dyQuot (dyAdd ep ⟨-1, 0⟩) (dyAdd ep ⟨1, 0⟩))

/-- vsfu on one element: function `fn` of R154, with the special inputs of R155. -/
def sfu (f : FFmt) (fn ty x : Nat) : Nat :=
  match fn, f.decode x with
  | _, .nan => f.nan
  | 0, .inf neg => if neg then 0 else f.inf false
  | 0, .fin neg m e => if m = 0 then f.one else sfuExp2 f ty x (FVal.fin neg m e).dy
  | 1, .inf neg => if neg then f.nan else f.inf false
  | 1, .fin neg m e => if m = 0 then f.inf true else if neg then f.nan else sfuLog2 f ty x m e
  | 2, .inf neg => f.zero neg
  | 2, .fin neg m e => if m = 0 then f.inf neg else
      let d := dyQuot ⟨1, 0⟩ ⟨m, e⟩
      f.round .nearest neg ⟨if neg then -d.m else d.m, d.e⟩
  | 3, .inf neg => if neg then f.nan else 0
  | 3, .fin neg m e => if m = 0 then f.inf neg else if neg then f.nan else sfuRsqrt f ty x m e
  | 4, .inf neg => if neg then 0 else f.one
  | 4, .fin neg m e => if m = 0 then roundCode f.p f.qmin .nearest false 1 (-1)
      else sfuSigmoid f ty x (FVal.fin neg m e).dy
  | 5, .inf neg => b2n neg * f.sign + f.one
  | 5, .fin neg m e => if m = 0 then f.zero neg else sfuTanh f ty x (FVal.fin neg m e).dy
  | _, _ => f.nan

end Sys2Proof.Machine
end

