-- ==== Sys2Proof/Machine/VectorAlu.lean ====
section
/-! DEFINITION. The vector unit's results (R146 to R159) and the top-k order (R161). -/

namespace Sys2Proof.Machine

/-- Element width of a vector type (R72). -/
def tyW (ty : Nat) : Nat :=
  match ty with
  | 0 => 32 | 3 => 32 | 6 => 32 | 1 => 16 | 2 => 16 | 4 => 16 | 7 => 16 | _ => 8

/-- Elements of a vector type (R72). -/
def tyCount (ty : Nat) : Nat := 2048 / tyW ty

/-- The float format of a type, where it is one. -/
def tyFloat (ty : Nat) : Option FFmt :=
  match ty with
  | 0 => some fp32 | 1 => some bf16 | 2 => some fp16 | _ => none

/-- A type is a signed integer type. -/
def tySigned (ty : Nat) : Bool := decide (3 ≤ ty ∧ ty ≤ 5)

/-- The value of an integer element. -/
def tyInt (ty : Nat) (x : Nat) : Int := if tySigned ty then sOf (tyW ty) x else (x % 2 ^ tyW ty : Nat)

/-- An integer result in a type: wrapped, or clamped with sat (R148). -/
def intOut (ty : Nat) (sat : Bool) (v : Int) : Nat :=
  let w := tyW ty
  uOf w (if sat then clampI (intMin (tySigned ty) w) (intMax (tySigned ty) w) v else v)

/-- The 32-bit lane of an element (R66). -/
def laneOf (ty i : Nat) : Nat := i * tyW ty / 32

/-- One element of a vector operation of two or three sources, by opcode (R73, R146 to R148). -/
def vElemOp (op ty : Nat) (rnd : Rnd) (sat : Bool) (a b c : Nat) : Nat :=
  let w := tyW ty
  match op, tyFloat ty with
  | 0x01, some f => fAdd f rnd a b
  | 0x01, none => intOut ty sat (tyInt ty a + tyInt ty b)
  | 0x02, some f => fSub f rnd a b
  | 0x02, none => intOut ty sat (tyInt ty a - tyInt ty b)
  | 0x03, some f => fMul f rnd a b
  | 0x03, none => intOut ty sat (tyInt ty a * tyInt ty b)
  | 0x04, some f => fFma f rnd a b c
  | 0x04, none => intOut ty false (tyInt ty a * tyInt ty b + tyInt ty c)
  | 0x05, some f => fMin f a b
  | 0x05, none => intOut ty false (min (tyInt ty a) (tyInt ty b))
  | 0x06, some f => fMax f a b
  | 0x06, none => intOut ty false (max (tyInt ty a) (tyInt ty b))
  | 0x07, some f => fAbs f a
  | 0x07, none => intOut ty sat (tyInt ty a).natAbs
  | 0x08, some f => fNeg f a
  | 0x08, none => intOut ty sat (-(tyInt ty a))
  | 0x09, _ => a &&& b
  | 0x0A, _ => a ||| b
  | 0x0B, _ => a ^^^ b
  | 0x0C, _ => a * 2 ^ (b % w) % 2 ^ w
  | 0x0D, _ => a / 2 ^ (b % w)
  | 0x0E, _ => uOf w (sOf w a / (2 ^ (b % w) : Nat))
  | _, _ => 0

/-- A vector result: enabled elements computed, the others kept or zeroed (R66). -/
def vMap (ty : Nat) (pred : W64) (zero : Bool) (old : VWord) (f : Nat → Nat) : VWord :=
  let w := tyW ty
  vOfElems w ((List.range (tyCount ty)).map (fun i =>
    if pred.getLsbD (laneOf ty i) then f i else if zero then 0 else vElem w old i))

/-- The relation of two elements (R149): none when unordered. -/
def vRel (ty a b : Nat) : Option Ordering :=
  match tyFloat ty with
  | some f => fCmp f a b
  | none => some (compare (tyInt ty a) (tyInt ty b))

/-- The compare of ctl[2:0] on a relation (R73, R149). -/
def vCmpHolds (c : Nat) (r : Option Ordering) : Bool :=
  match c, r with
  | 0, some .eq => true
  | 1, some .eq => false
  | 1, _ => true
  | 2, some .lt => true
  | 3, some .lt => true
  | 3, some .eq => true
  | 4, some .gt => true
  | 5, some .gt => true
  | 5, some .eq => true
  | 6, none => true
  | 7, some _ => true
  | _, _ => false

/-- vcmp: the predicate register (R149). -/
def vCmpResult (ty ctl : Nat) (pred : W64) (zero : Bool) (old : W64) (va vb : VWord) : W64 :=
  let w := tyW ty
  let n := 32 / w
  let part := ctl / 8 % 4
  BitVec.ofNat 64 (packElems 1 ((List.range 64).map (fun i =>
    if pred.getLsbD i then b2n (vCmpHolds (ctl % 8) (vRel ty (vElem w va (n * i + part)) (vElem w vb (n * i + part))))
    else if zero then 0 else b2n (old.getLsbD i))))

/-- One element converted between types (R150). -/
def cvtElem (src dst : Nat) (rnd : Rnd) (sat : Bool) (x : Nat) : Nat :=
  match tyFloat src, tyFloat dst with
  | some f, some g => fConv f g rnd sat x
  | some f, none => fToInt f rnd sat (tySigned dst) (tyW dst) x
  | none, some g => intToF g rnd sat (tyInt src x)
  | none, none => intOut dst sat (tyInt src x)

/-- vcvt (R150): the part q of the side with more elements takes part. -/
def vCvtResult (src dst q : Nat) (rnd : Rnd) (sat : Bool) (pred : W64) (zero : Bool) (old va : VWord) : VWord :=
  let m := min (tyCount src) (tyCount dst)
  let wd := tyW dst
  let dOff := if tyCount src < tyCount dst then q * m else 0
  let sOff := if tyCount dst < tyCount src then q * m else 0
  vOfElems wd ((List.range (tyCount dst)).map (fun i =>
    if i < dOff ∨ dOff + m ≤ i then vElem wd old i
    else if pred.getLsbD (laneOf dst i) then cvtElem src dst rnd sat (vElem (tyW src) va (sOff + (i - dOff)))
    else if zero then 0 else vElem wd old i))

/-- One level of the reduction tree: element i with element i + m (R153). -/
def redTree {α : Type} (f : α → α → α) : Nat → List α → List α
  | 0, l => l
  | n + 1, l =>
    let h := l.length / 2
    if h = 0 then l else redTree f n ((l.take h).zipWith f (l.drop h))

/-- The reductions vredadd, vredmax and vredmin, by opcode (R153). -/
def vReduce (op ty : Nat) (rnd : Rnd) (pred : W64) (va : VWord) : W64 :=
  let w := tyW ty
  let idx := List.range (tyCount ty)
  match tyFloat ty with
  | some f =>
    let ident := if op = 0x28 then fp32.sign else if op = 0x29 then fp32.inf true else fp32.inf false
    let comb := if op = 0x28 then fAdd fp32 rnd else if op = 0x29 then fMax fp32 else fMin fp32
    let l := idx.map (fun i =>
      if pred.getLsbD (laneOf ty i) then fConv f fp32 .nearest false (vElem w va i) else ident)
    BitVec.ofNat 64 ((redTree comb 8 l).headD 0)
  | none =>
    let ident := if op = 0x28 then 0 else if op = 0x29 then intMin (tySigned ty) w else intMax (tySigned ty) w
    let comb : Int → Int → Int := if op = 0x28 then (· + ·) else if op = 0x29 then max else min
    let l := idx.map (fun i => if pred.getLsbD (laneOf ty i) then tyInt ty (vElem w va i) else ident)
    BitVec.ofInt 64 ((redTree comb 8 l).headD 0)

/-- The scalar value of an element for vext: sign-extended for signed integer types (R151). -/
def extElem (ty x : Nat) : W64 := if tySigned ty then BitVec.ofInt 64 (sOf (tyW ty) x) else BitVec.ofNat 64 x

/-- Ten rounds of Philox4x32 on counter and key (R157). -/
def philoxRounds : Nat → W32 × W32 × W32 × W32 → W32 × W32 → W32 × W32 × W32 × W32
  | 0, c, _ => c
  | n + 1, (c0, c1, c2, c3), (k0, k1) =>
    let p0 := 0xD2511F53 * c0.toNat
    let p1 := 0xCD9E8D57 * c2.toNat
    let hi (p : Nat) : W32 := BitVec.ofNat 32 (p / 2 ^ 32)
    let lo (p : Nat) : W32 := BitVec.ofNat 32 p
    philoxRounds n (hi p1 ^^^ c1 ^^^ k0, lo p1, hi p0 ^^^ c3 ^^^ k1, lo p0) (k0 + 0x9E3779B9#32, k1 + 0xBB67AE85#32)

/-- The words of one vrng block (R158). -/
def philoxBlock (key sa : W64) (stream b : Nat) : List Nat :=
  let lo (x : W64) : W32 := BitVec.ofNat 32 x.toNat
  let hi (x : W64) : W32 := BitVec.ofNat 32 (x.toNat / 2 ^ 32)
  let (c0, c1, c2, c3) := philoxRounds 10 (lo sa, hi sa, BitVec.ofNat 32 b, BitVec.ofNat 32 stream) (lo key, hi key)
  [c0.toNat, c1.toNat, c2.toNat, c3.toNat]

/-- The lane value of a random word (R158). -/
def rngLane (ty x : Nat) : Nat := if ty = 0 then fp32.round .zero false ⟨(x / 256 : Nat), -24⟩ else x

/-- vrng (R158). -/
def vRngResult (ty stream : Nat) (key sa : W64) (pred : W64) (zero : Bool) (old : VWord) : VWord :=
  let ws := ((List.range 16).map (philoxBlock key sa stream)).flatten
  vMap ty pred zero old (fun i => rngLane ty (ws.getD i 0))

/-! Top-k order (R161). -/

/-- Entry `a` of the source ranks before entry `b` by value alone, under the job's order (R161). -/
def topkBefore (ty : Nat) (smallest : Bool) (a b : Nat) : Bool :=
  vRel ty a b == some (if smallest then .lt else .gt)

/-- An entry is a NaN. -/
def topkNan (ty x : Nat) : Bool :=
  match tyFloat ty with
  | some f => decide (f.infCode < x % f.sign)
  | none => false

/-- A sorted list with an entry inserted after every entry that does not rank behind it, cut to `k` entries. -/
def topkInsert (ty : Nat) (smallest : Bool) (k : Nat) (e : Nat × Nat) : List (Nat × Nat) → List (Nat × Nat)
  | [] => [e].take k
  | h :: t =>
    match k with
    | 0 => []
    | k + 1 => if topkBefore ty smallest e.2 h.2 then e :: (h :: t).take k else h :: topkInsert ty smallest k e t

/-- The k best entries as pairs of position and value (R161). -/
def topkSelect (ty : Nat) (smallest : Bool) (k : Nat) (src : List Nat) : List (Nat × Nat) :=
  (src.zipIdx).foldl (fun acc p => if topkNan ty p.1 then acc else topkInsert ty smallest k (p.2, p.1) acc) []

/-- The 8 bytes of an output entry (R162). -/
def topkEntry (ty indexBase : Nat) (e : Option (Nat × Nat)) : List Byte :=
  match e with
  | some (pos, v) =>
    let v32 := match tyFloat ty with
      | some f => fConv f fp32 .nearest false v
      | none => v
    leBytes 4 v32 ++ leBytes 4 (indexBase + pos)
  | none => leBytes 4 (if (tyFloat ty).isSome then 0x7FC00000 else 0x80000000) ++ leBytes 4 0xFFFFFFFF

/-- The output of a job: k entries, the tail empty (R161, R162). -/
def topkOutput (ty indexBase : Nat) (smallest : Bool) (k : Nat) (src : List Nat) : List Byte :=
  let sel := topkSelect ty smallest k src
  ((List.range k).map (fun e => topkEntry ty indexBase (sel[e]?))).flatten

end Sys2Proof.Machine
end

