-- ==== Sys2Proof/Machine/Bundle.lean ====
section
/-! DEFINITION. Bundles: their words, which bundles are legal, and what each slot reads and writes (R62 to R84). -/

namespace Sys2Proof.Machine

/-! ### Words (R62, R63, R69, R71, R75, R79) -/

def sWord (o : SOp) : BitVec 48 :=
  o.op ++ o.f.sd ++ o.f.sa ++ o.f.sb ++ o.f.imm20 ++ BitVec.ofBool o.f.useimm ++ BitVec.ofBool o.f.w32

def sOfWord (x : BitVec 48) : SOp where
  op := x.extractLsb' 40 8
  f := {
    sd := x.extractLsb' 34 6
    sa := x.extractLsb' 28 6
    sb := x.extractLsb' 22 6
    imm20 := x.extractLsb' 2 20
    useimm := x.getLsbD 1
    w32 := x.getLsbD 0 }

def vWord (o : VOp) : BitVec 96 :=
  o.op ++ o.f.ty ++ o.f.vd ++ o.f.va ++ o.f.vb ++ o.f.vc ++ o.f.pd ++ o.f.sa ++ o.f.imm20 ++ o.f.rnd ++
    BitVec.ofBool o.f.sat ++ BitVec.ofBool o.f.zero ++ o.f.ctl

def vOfWord (x : BitVec 96) : VOp where
  op := x.extractLsb' 88 8
  f := {
    ty := x.extractLsb' 84 4
    vd := x.extractLsb' 78 6
    va := x.extractLsb' 72 6
    vb := x.extractLsb' 66 6
    vc := x.extractLsb' 60 6
    pd := x.extractLsb' 56 4
    sa := x.extractLsb' 50 6
    imm20 := x.extractLsb' 30 20
    rnd := x.extractLsb' 28 2
    sat := x.getLsbD 27
    zero := x.getLsbD 26
    ctl := x.extractLsb' 0 26 }

def mWord (o : MOp) : BitVec 64 :=
  o.op ++ o.f.fmtA ++ o.f.fmtB ++ o.f.acc ++ o.f.ia ++ o.f.ib ++ BitVec.ofBool o.f.bsel ++ o.f.sa ++ o.f.imm20 ++
    o.f.opt ++ o.f.stride

def mOfWord (x : BitVec 64) : MOp where
  op := x.extractLsb' 56 8
  f := {
    fmtA := x.extractLsb' 52 4
    fmtB := x.extractLsb' 48 4
    acc := x.extractLsb' 45 3
    ia := x.extractLsb' 43 2
    ib := x.extractLsb' 41 2
    bsel := x.getLsbD 40
    sa := x.extractLsb' 34 6
    imm20 := x.extractLsb' 14 20
    opt := x.extractLsb' 10 4
    stride := x.extractLsb' 0 10 }

def xWord (o : XOp) : BitVec 96 :=
  o.op ++ o.f.sdst ++ o.f.ssrc ++ o.f.slen ++ o.f.saux ++ o.f.imm20 ++ o.f.ctr ++ BitVec.ofBool o.f.notify ++
    BitVec.ofBool o.f.lenimm ++ o.f.xflags ++ o.f.rsv

def xOfWord (x : BitVec 96) : XOp where
  op := x.extractLsb' 88 8
  f := {
    sdst := x.extractLsb' 82 6
    ssrc := x.extractLsb' 76 6
    slen := x.extractLsb' 70 6
    saux := x.extractLsb' 64 6
    imm20 := x.extractLsb' 44 20
    ctr := x.extractLsb' 32 12
    notify := x.getLsbD 31
    lenimm := x.getLsbD 30
    xflags := x.extractLsb' 26 4
    rsv := x.extractLsb' 0 26 }

def hWord (h : Header) : BitVec 64 :=
  BitVec.ofBool h.vs ++ BitVec.ofBool h.vv0 ++ BitVec.ofBool h.vv1 ++ BitVec.ofBool h.vm ++ BitVec.ofBool h.vx ++
    BitVec.ofBool h.stop ++ h.bhint ++ h.pselS ++ h.pselV0 ++ h.pselV1 ++ h.pselM ++ h.pselX ++ h.extTgt ++ h.extImm

def hOfWord (x : BitVec 64) : Header where
  vs := x.getLsbD 63
  vv0 := x.getLsbD 62
  vv1 := x.getLsbD 61
  vm := x.getLsbD 60
  vx := x.getLsbD 59
  stop := x.getLsbD 58
  bhint := x.extractLsb' 56 2
  pselS := x.extractLsb' 51 5
  pselV0 := x.extractLsb' 46 5
  pselV1 := x.extractLsb' 41 5
  pselM := x.extractLsb' 36 5
  pselX := x.extractLsb' 31 5
  extTgt := x.extractLsb' 28 3
  extImm := x.extractLsb' 0 28

/-- The 512 bits of a bundle (R62). -/
def encodeBundle (b : Bundle) : BitVec 512 :=
  hWord b.h ++ sWord b.s0 ++ sWord b.s1 ++ vWord b.v0 ++ vWord b.v1 ++ mWord b.m ++ xWord b.x

/-- The bundle of 512 bits; every word is one (R62). -/
def decodeBundle (x : BitVec 512) : Bundle where
  h := hOfWord (x.extractLsb' 448 64)
  s0 := sOfWord (x.extractLsb' 400 48)
  s1 := sOfWord (x.extractLsb' 352 48)
  v0 := vOfWord (x.extractLsb' 256 96)
  v1 := vOfWord (x.extractLsb' 160 96)
  m := mOfWord (x.extractLsb' 96 64)
  x := xOfWord (x.extractLsb' 0 96)

/-! ### Bundles of one operation -/

def nopS : SOp := sOfWord 0
def nopV : VOp := vOfWord 0
def nopM : MOp := mOfWord 0
def nopX : XOp := xOfWord 0
def nopBundle : Bundle := decodeBundle 0

/-- The header of a bundle whose only valid slot is slot `i` in the order S, V0, V1, M, X, with extension target `t`. -/
def oneHeader (i t : Nat) (k : OpCtl) : Header where
  vs := i == 0
  vv0 := i == 1
  vv1 := i == 2
  vm := i == 3
  vx := i == 4
  stop := k.stop
  bhint := k.bhint
  pselS := if i = 0 then k.psel else 0
  pselV0 := if i = 1 then k.psel else 0
  pselV1 := if i = 2 then k.psel else 0
  pselM := if i = 3 then k.psel else 0
  pselX := if i = 4 then k.psel else 0
  extTgt := match k.ext with
    | some _ => BitVec.ofNat 3 t
    | none => 0
  extImm := k.ext.getD 0

/-- A bundle that holds one scalar operation, in S0 or S1. -/
def bundleS (k : OpCtl) (op : BitVec 8) (f : SOps) : Bundle :=
  if k.second then { nopBundle with h := oneHeader 0 2 k, s1 := ⟨op, f⟩ }
  else { nopBundle with h := oneHeader 0 1 k, s0 := ⟨op, f⟩ }

/-- A bundle that holds one vector operation, in V0 or V1. -/
def bundleV (k : OpCtl) (op : BitVec 8) (f : VOps) : Bundle :=
  if k.second then { nopBundle with h := oneHeader 2 4 k, v1 := ⟨op, f⟩ }
  else { nopBundle with h := oneHeader 1 3 k, v0 := ⟨op, f⟩ }

/-- A bundle that holds one matrix operation. -/
def bundleM (k : OpCtl) (op : BitVec 8) (f : MOps) : Bundle :=
  { nopBundle with h := oneHeader 3 5 k, m := ⟨op, f⟩ }

/-- A bundle that holds one move operation. -/
def bundleX (k : OpCtl) (op : BitVec 8) (f : XOps) : Bundle :=
  { nopBundle with h := oneHeader 4 6 k, x := ⟨op, f⟩ }

/-! ### Slots as they act: an invalid slot is a nop (R64) -/

def actS0 (b : Bundle) : SOp := if b.h.vs then b.s0 else nopS
def actS1 (b : Bundle) : SOp := if b.h.vs then b.s1 else nopS
def actV0 (b : Bundle) : VOp := if b.h.vv0 then b.v0 else nopV
def actV1 (b : Bundle) : VOp := if b.h.vv1 then b.v1 else nopV
def actM (b : Bundle) : MOp := if b.h.vm then b.m else nopM
def actX (b : Bundle) : XOp := if b.h.vx then b.x else nopX

/-! ### Immediates (R67) -/

/-- The extension that the header gives target `t`. -/
def extOf (b : Bundle) (t : Nat) : Option (BitVec 28) := if b.h.extTgt.toNat = t then some b.h.extImm else none

/-- A signed immediate: imm20, or 48 bits with the extension. -/
def immS (ext : Option (BitVec 28)) (imm : BitVec 20) : W64 :=
  match ext with
  | some e => (e ++ imm).signExtend 64
  | none => imm.signExtend 64

/-- An unsigned immediate of the X slot. -/
def immX (ext : Option (BitVec 28)) (imm : BitVec 20) : Nat :=
  match ext with
  | some e => (e ++ imm).toNat
  | none => imm.toNat

def sTakesImm (o : SOp) : Bool :=
  let op := o.op.toNat
  op != 0 && (o.f.useimm || op == 0x30 || op == 0x32 || op == 0x2E || op == 0x2F)

def vTakesImm (o : VOp) : Bool :=
  let op := o.op.toNat
  op == 0x30 || op == 0x31 || op == 0x22 || op == 0x23

def mTakesImm (o : MOp) : Bool := o.op.toNat == 1 || o.op.toNat == 4

def xTakesImm (o : XOp) : Bool :=
  let op := o.op.toNat
  op != 0 && (o.f.lenimm || op == 3 || op == 4)

/-- The extension names a valid slot whose operation takes an immediate (R67). -/
def extLegal (b : Bundle) : Bool :=
  match b.h.extTgt.toNat with
  | 0 => true
  | 1 => sTakesImm (actS0 b)
  | 2 => sTakesImm (actS1 b)
  | 3 => vTakesImm (actV0 b)
  | 4 => vTakesImm (actV1 b)
  | 5 => mTakesImm (actM b)
  | 6 => xTakesImm (actX b)
  | _ => false

/-! ### Legal operations (R68, R70, R73, R77 to R80) -/

/-- The special registers that mfs may name (R99). -/
def srReadable (n : Nat) : Bool :=
  [0, 1, 2, 3, 4, 5, 6, 8, 0x0A, 0x0B, 0x10, 0x11, 0x12, 0x18].contains n

/-- The special registers that mts may name (R99). -/
def srWritable (n : Nat) : Bool := n == 0x10 || n == 0x18

/-- A scalar operation is legal in its slot. -/
def sLegal (second : Bool) (o : SOp) : Bool :=
  let op := o.op.toNat
  let two := (0x01 ≤ op && op ≤ 0x0F) || (0x10 ≤ op && op ≤ 0x16)
  let srn := o.f.imm20.toNat % 256
  if op = 0 || two then true
  else if op = 0x18 then o.f.useimm
  else if 0x1A ≤ op ∧ op ≤ 0x1C then true
  else if (0x20 ≤ op ∧ op ≤ 0x23) ∨ (0x28 ≤ op ∧ op ≤ 0x2B) then o.f.useimm
  else if op = 0x2E then srReadable srn && (srn != 8 || o.f.sd.toNat % 2 == 0)
  else if op = 0x2F then srWritable srn
  else (0x30 ≤ op && op ≤ 0x33 || op == 0x38 || op == 0x39 || op == 0x3E || op == 0x3F) && !second

/-- The sat bit is allowed (R148). R148 makes sat illegal on an integer operation that has no use for it, and R153 ignores
it on a reduction: DEDUCED, an integer reduction with sat is legal and ignores it (log entry 87). -/
def vSatLegal (op ty : Nat) : Bool :=
  let isF := (tyFloat ty).isSome
  if op = 0x18 then true
  else if isF then false
  else [0x01, 0x02, 0x03, 0x07, 0x08, 0x28, 0x29, 0x2A].contains op

/-- A vector operation is legal. -/
def vLegal (b : Bundle) (tgt : Nat) (o : VOp) : Bool :=
  let op := o.op.toNat
  let ty := o.f.ty.toNat
  let ctl := o.f.ctl.toNat
  let isF := (tyFloat ty).isSome
  let imm := (immS (extOf b tgt) o.f.imm20).toNat
  if op = 0 then decide (ty ≤ 8) && ctl == 0
  else if 9 ≤ ty then false
  else if o.f.sat && !(vSatLegal op ty) then false
  else if 0x01 ≤ op ∧ op ≤ 0x08 then ctl == 0
  else if 0x09 ≤ op ∧ op ≤ 0x0E then ctl == 0 && !isF
  else if op = 0x10 then
    ctl / 32 == 0 && decide (ctl / 8 % 4 < 32 / tyW ty)
  else if op = 0x11 then ctl == 0
  else if op = 0x18 then
    let src := ctl % 16
    let q := ctl / 16 % 4
    let hi := max (tyCount src) (tyCount ty)
    let lo := min (tyCount src) (tyCount ty)
    decide (src ≤ 8) && src != ty && ctl / 64 == 0 && decide (q < hi / lo)
  else if op = 0x20 ∨ op = 0x21 then ctl == 0
  else if op = 0x22 ∨ op = 0x23 then ctl == 0 && decide (imm < tyCount ty)
  else if op = 0x28 ∨ op = 0x29 ∨ op = 0x2A then ctl == 0
  else if op = 0x30 ∨ op = 0x31 then ctl == 0
  else if op = 0x32 ∨ op = 0x33 then ctl == 0 && (ty == 0 || ty == 3 || ty == 6)
  else if op = 0x38 then decide (ctl < 6) && isF
  else if op = 0x3C then
    ctl / 2 ^ 16 == 0 && (ty == 0 || ty == 6) && o.f.rnd == 0 && !o.f.sat && o.f.vb == 0 && o.f.va == 0 && o.f.vc == 0
  else false

/-- A matrix operation is legal (R77, R78, R114, R117, R118, R135). -/
def mLegal (o : MOp) : Bool :=
  let op := o.op.toNat
  let fa := o.f.fmtA.toNat
  let fb := o.f.fmtB.toNat
  let st := o.f.stride.toNat
  let opt := o.f.opt.toNat
  match op with
  | 0 => decide (fa ≤ 9) && fb == 0
  | 1 =>
    let meta_ := opt % 2 == 1
    let dual := opt / 2 % 2 == 1
    fb == 0 && opt / 4 == 0 && decide (fa ≤ 8) &&
      (if meta_ then o.f.bsel && st == 0 && fa == 0 && !dual
       else strideLegal fa st && (!dual || (o.f.bsel && decide (fa ≤ 4))))
  | 2 => mmacPairLegal fa fb o.f.bsel && mmacBufsLegal (isMxfp4 fa fb) o.f.bsel o.f.ia.toNat o.f.ib.toNat
  | 3 => decide (fa ≤ 9) && fb == 0
  | 4 =>
    decide (fa ≤ 9) && fb == 0 && !o.f.bsel && o.f.ia == 0 && o.f.ib == 0 && strideLegal fa st &&
      (opt / 8 == 0 || decide (fa ≤ 5))
  | _ => false

/-- A move operation is legal (R79, R80, R160, R188, R193). -/
def xLegal (o : XOp) : Bool :=
  let op := o.op.toNat
  decide (op ≤ 8) && o.f.rsv == 0 && o.f.xflags == 0 && (!(op == 3 || op == 4 || op == 7) || !o.f.lenimm)

/-! ### Resources: s i as i, v i as 64 + i, p i as 128 + i, a i as 144 + i, fa i, fb i and metadata i as 152, 156 and
160 plus i, SR_WAIT_TMO as 164 and SR_RNG_KEY as 165 -/

/-- The resource of a special register that mts may write; none for another. -/
def srRes (n : Nat) : List Nat := if n = 0x10 then [164] else if n = 0x18 then [165] else []

/-- What a scalar operation writes. -/
def sDst (o : SOp) : List Nat :=
  let op := o.op.toNat
  let sd := o.f.sd.toNat
  if op = 0 then []
  else if op = 0x2E then (if o.f.imm20.toNat % 256 = 8 then [sd, sd + 1] else [sd])
  else if (0x0D ≤ op ∧ op ≤ 0x0F) ∨ (0x1A ≤ op ∧ op ≤ 0x1C) then [128 + sd % 16]
  else if op = 0x32 then [63]
  else if op = 0x2F then srRes (o.f.imm20.toNat % 256)
  else if op ≤ 0x18 ∨ (0x20 ≤ op ∧ op ≤ 0x23) ∨ op = 0x38 then [sd]
  else []

/-- What a scalar operation reads beside its predicate. -/
def sSrc (o : SOp) : List Nat :=
  let op := o.op.toNat
  let sa := o.f.sa.toNat
  let sb := o.f.sb.toNat
  let second := if o.f.useimm then [] else [sb]
  if op = 0 ∨ op = 0x18 then []
  else if op ≤ 0x16 then sa :: second
  else if 0x1A ≤ op ∧ op ≤ 0x1C then [128 + sa % 16, 128 + sb % 16]
  else if 0x20 ≤ op ∧ op ≤ 0x23 then [sa]
  else if 0x28 ≤ op ∧ op ≤ 0x2B then [sa, sb]
  else if op = 0x2F ∨ op = 0x31 ∨ op = 0x3F then [sa]
  else if op = 0x33 then [63]
  else if op = 0x2E then srRes (o.f.imm20.toNat % 256)
  else if op = 0x38 then 164 :: sa :: second
  else []

/-- What a vector operation writes. -/
def vDst (o : VOp) : List Nat :=
  let op := o.op.toNat
  if op = 0 ∨ op = 0x31 ∨ op = 0x33 then []
  else if op = 0x10 then [128 + o.f.pd.toNat]
  else if op = 0x22 ∨ op = 0x28 ∨ op = 0x29 ∨ op = 0x2A then [o.f.sa.toNat]
  else [64 + o.f.vd.toNat]

/-- What a vector operation reads beside its predicate. -/
def vSrc (o : VOp) : List Nat :=
  let op := o.op.toNat
  let va := 64 + o.f.va.toNat
  let vb := 64 + o.f.vb.toNat
  let vc := 64 + o.f.vc.toNat
  let sa := o.f.sa.toNat
  if op = 0 then []
  else if op = 0x04 then [va, vb, vc]
  else if op = 0x07 ∨ op = 0x08 ∨ op = 0x18 ∨ op = 0x22 ∨ op = 0x28 ∨ op = 0x29 ∨ op = 0x2A ∨ op = 0x38 then [va]
  else if op = 0x11 then [va, vb, 128 + o.f.pd.toNat]
  else if op ≤ 0x10 ∨ op = 0x20 then [va, vb]
  else if op = 0x21 ∨ op = 0x23 ∨ op = 0x30 then [sa]
  else if op = 0x3C then [sa, 165]
  else if op = 0x31 then [sa, va]
  else if op = 0x32 then [sa, vb]
  else [sa, vb, va]

/-- What a matrix operation writes. -/
def mDst (o : MOp) : List Nat :=
  match o.op.toNat with
  | 1 =>
    if o.f.opt.toNat % 2 = 1 then [160 + o.f.ib.toNat]
    else if o.f.bsel then [156 + o.f.ib.toNat] else [152 + o.f.ia.toNat]
  | 2 => [144 + o.f.acc.toNat]
  | 3 => [144 + o.f.acc.toNat]
  | _ => []

/-- The fa and fb buffers and metadata areas of an mmac (R78). -/
def mmacBufs (o : MOp) : List Nat × List Nat × List Nat :=
  let ia := o.f.ia.toNat
  let ib := o.f.ib.toNat
  match isMxfp4 o.f.fmtA.toNat o.f.fmtB.toNat, o.f.bsel with
  | false, false => ([ia], [ib], [])
  | true, false => ([ia, ia + 1], [ib, ib + 1], [])
  | false, true => ([ia, ia + 1], [ib], [ib])
  | true, true => ([0, 1, 2, 3], [ib, ib + 1], [ib, ib + 1])

/-- The buffers of an mmac as resources, in the order in which a bad one is reported (R122). -/
def mmacRes (o : MOp) : List Nat :=
  let (a, b, c) := mmacBufs o
  a.map (152 + ·) ++ b.map (156 + ·) ++ c.map (160 + ·)

/-- What a matrix operation reads beside its predicate. -/
def mSrc (o : MOp) : List Nat :=
  match o.op.toNat with
  | 1 => [o.f.sa.toNat]
  | 2 => mmacRes o
  | 4 => [o.f.sa.toNat, 144 + o.f.acc.toNat]
  | _ => []

/-- What a move operation reads beside its predicate. -/
def xSrc (o : XOp) : List Nat :=
  let d := o.f.sdst.toNat
  let c := o.f.ssrc.toNat
  let n := if o.f.lenimm then [] else [o.f.slen.toNat]
  let x := o.f.saux.toNat
  match o.op.toNat with
  | 1 => d :: c :: n
  | 2 => d :: x :: n
  | 3 => d :: c :: x :: n
  | 4 => d :: x :: n
  | 5 => [x]
  | 6 => [x]
  | 7 => d :: c :: x :: n
  | 8 => [x]
  | _ => []

/-- No resource is written twice (R83). -/
def noDup : List Nat → Bool
  | [] => true
  | a :: t => !(t.contains a) && noDup t

/-- A divide. -/
def isDiv (o : SOp) : Bool := decide (0x13 ≤ o.op.toNat ∧ o.op.toNat ≤ 0x16)

/-- Every register, predicate, tile and buffer a bundle writes. -/
def bundleDst (b : Bundle) : List Nat :=
  (sDst (actS0 b) ++ sDst (actS1 b)).filter (fun r => decide (r < 164)) ++ vDst (actV0 b) ++ vDst (actV1 b) ++ mDst (actM b)

/-- A bundle whose fields are legal (R63, R67, R68, R83). -/
def bundleLegal (b : Bundle) : Bool :=
  decide (b.h.bhint.toNat < 2) && extLegal b && sLegal false (actS0 b) && sLegal true (actS1 b) && vLegal b 3 (actV0 b) &&
    vLegal b 4 (actV1 b) && mLegal (actM b) && xLegal (actX b) && noDup (bundleDst b) && !(isDiv (actS0 b) && isDiv (actS1 b))

end Sys2Proof.Machine
end

