-- ==== Sys2Proof/Machine/LockStep.lean ====
section
/-! DEFINITION. Lock-step records: digests, their cells, matching, the freeze and the end of a comparison (R482 to
R486). -/

namespace Sys2Proof.Machine

/-- The number that stands for a kernel record, a freeze and an empty record (R483). -/
def lsKernelRank : Nat := 0xFFFF
def lsFreezeRank : Nat := 0xFFFE
def lsEmptyRank : Nat := 0xFFFD

/-- The comparison freezes or runs on a context (R484, R485). -/
def lsFrozen (d : Dev) (ctx : Nat) : Bool := d.ls.state == 3 && d.ls.ctx == ctx / 16

/-- Records may be held: at most 16,384 of the module's own are not yet matched (R483). -/
def lsFull (d : Dev) : Bool := decide (16384 ≤ d.ls.mine.length)

/-- The 16 bytes of a record (R483). -/
def lsRecBytes (rank bundle seq : Nat) (digest : W64) : List Byte :=
  leBytes 2 rank ++ leBytes 2 bundle ++ leBytes 4 seq ++ leBytes 8 digest.toNat

def lsEmptyBytes : List Byte := lsRecBytes lsEmptyRank 0 0 0

/-- A DIGEST cell with one record and three empty ones (R483). -/
def lsCell (d : Dev) (rec : List Byte) : Cell :=
  let gen := match slotOfId d d.ls.ctx with
    | some n => ctxWord d n % 16
    | none => 0
  { cellZero with
    dst := BitVec.ofNat 12 d.ls.partner, src := d.rtr.node, op := 0x18, ctx := BitVec.ofNat 12 d.ls.ctx,
    gen := BitVec.ofNat 4 gen, len := 63, hops := 63, k3 := k3Node d d.ls.partner,
    payload := payloadOf (rec ++ lsEmptyBytes ++ lsEmptyBytes ++ lsEmptyBytes) }

/-- A record goes to the partner in class 0; without an Express path it is not sent (R262, R483). -/
def lsSend (rec : List Byte) (d : Dev) : Dev :=
  if expRoute d d.ls.partner then sendCell (lsCell d rec) .notice .none d else cntInc (nicBase + 0x898) d

/-- A freeze record goes to the head of the Express queue (R485). -/
def lsSendFreeze (d : Dev) : Dev :=
  let o : OutCell := ⟨k3Seal (lsCell d (lsRecBytes lsFreezeRank 0 0 0)), .notice, .none, 0, 0, false, 0, false⟩
  if !(expRoute d d.ls.partner) then cntInc (nicBase + 0x898) d
  else if expRoom d d.ls.partner then expRelease o d
  else cntInc (nicBase + 0x888) { d with nic := { d.nic with expq := o :: d.nic.expq } }

/-- The context is frozen (R485). -/
def lsFreeze (cause : Nat) (detect : Bool) (d : Dev) : Dev :=
  emit 0xA001 0 (BitVec.ofNat 64 (3 + 256 * cause))
    { d with ls := { d.ls with state := 3, endCause := cause, localDetect := detect } }

/-- The comparison ends without a freeze (R485). -/
def lsEnd (cause : Nat) (d : Dev) : Dev :=
  emit 0xA001 0 (BitVec.ofNat 64 (4 + 256 * cause))
    { d with ls := { d.ls with state := 4, endCause := cause, mine := [], recv := [] } }

/-- A mismatch of an own record with the partner's (R485, R486). -/
def lsMismatch (own theirs : LsRec) (d : Dev) : Dev :=
  let kern := decide (own.rank = lsKernelRank)
  let d := lsSendFreeze d
  let d := { d with ls := { d.ls with
    kernel := BitVec.ofNat 32 (if kern then own.seq else own.kernel), rank := own.rank, bundle := own.bundle
    seq := BitVec.ofNat 32 own.seq, va := own.va, own := own.digest, theirs := theirs.digest } }
  lsFreeze (if kern then 2 else 1) true d

/-- Own and received records matched in order of the own ones, until one differs (R485). -/
def lsMatch : List LsRec → Dev → Dev
  | [], d => d
  | m :: t, d =>
    match d.ls.recv.find? (fun r => r.rank == m.rank && r.seq == m.seq) with
    | none => lsMatch t d
    | some r =>
      let d := { d with ls := { d.ls with
        mine := d.ls.mine.filter (fun x => x != m), recv := d.ls.recv.filter (fun x => x != r) } }
      if m.digest = r.digest then
        lsMatch t (cntInc (dbgBase + (if m.rank = lsKernelRank then 0x148 else 0x140)) d)
      else lsMismatch m r d

/-- An own record: sent, held, and matched (R483, R485). -/
def lsPost (r : LsRec) (d : Dev) : Dev :=
  if d.ls.state = 2 then
    let d := lsSend (lsRecBytes r.rank r.bundle r.seq r.digest) d
    lsMatch [r] { d with ls := { d.ls with mine := snoc d.ls.mine r } }
  else d

/-- The CRC of one granule write of a compared kernel: address, mask of the bytes written, bytes (R482). -/
def lsGranCrc (va : Nat) (bs : List (Option Byte)) : W64 :=
  let mask := packElems 1 (bs.map (fun b => b2n b.isSome))
  crc64 (leBytes 8 va ++ leBytes 8 mask ++ bs.map (fun b => b.getD 0))

/-- The ring of a slot that runs a landing, with what it runs. -/
def runOf (d : Dev) (slot l : Nat) : Option (Nat × Running) :=
  (List.range 8).findSome? (fun r =>
    match (ringGet d slot r).run with
    | some k => if k.landings.contains l then some (r, k) else none
    | none => none)

/-- A change of the run of a landing's kernel. -/
def runMod (slot l : Nat) (f : Running → Running) (d : Dev) : Dev :=
  match runOf d slot l with
  | some (r, k) => ringPut slot r { ringGet d slot r with run := some (f k) } d
  | none => d

/-- The granule writes of a compared kernel added to its sum (R482); `va` and `pa` are equal modulo 64. -/
def lsWrote (l slot va : Nat) (bytes : List (Option Byte)) (d : Dev) : Dev :=
  match runOf d slot l with
  | some (_, k) =>
    if k.compared then
      let sum := (List.range (granCount va bytes.length)).foldl (fun (x : W64) i =>
        let p := granPart va bytes i
        if p.any Option.isSome then x + lsGranCrc (64 * (va / 64 + i)) p else x) 0
      runMod slot l (fun k => { k with lsSum := k.lsSum + sum }) d
    else d
  | none => d

end Sys2Proof.Machine
end

