-- ==== Sys2Proof/Machine/LandBase.lean ====
section
/-! DEFINITION. Landing registers, address checks, trackers, and what a fault, machine check or watchdog expiry does
(R60, R65, R89 to R110, R171 to R174, R450). -/

namespace Sys2Proof.Machine

/-! ### Registers -/

def regS (r : LRegs) (i : Nat) : W64 := spGet 0 r.s i
def regV (r : LRegs) (i : Nat) : VWord := spGet 0 r.v i

/-- A predicate register; p0 reads as all ones (R60). -/
def regP (r : LRegs) (i : Nat) : W64 := if i = 0 then BitVec.allOnes 64 else spGet 0 r.p i

/-- An accumulator tile, 1,024 elements. -/
def regAcc (r : LRegs) (i : Nat) : Tile := spGet [] r.acc i

/-- A bad mark taken away (R122, R174). -/
def clearBad (res : Nat) (r : LRegs) : LRegs := { r with bad := spErase (fun k => k == res) r.bad }

def setBad (res cause addr : Nat) (r : LRegs) : LRegs := { r with bad := spPut (0, 0) res (cause, addr) r.bad }

def putS (i : Nat) (v : W64) (r : LRegs) : LRegs := clearBad i { r with s := spPut 0 i v r.s }
def putV (i : Nat) (v : VWord) (r : LRegs) : LRegs := clearBad (64 + i) { r with v := spPut 0 i v r.v }

/-- A write of a predicate register; p0 ignores it (R60). -/
def putP (i : Nat) (v : W64) (r : LRegs) : LRegs := if i = 0 then r else { r with p := spPut 0 i v r.p }

def putAcc (i : Nat) (t : Tile) (r : LRegs) : LRegs := { r with acc := spPut [] i t r.acc }

/-- The predicate resource of a selector, if it names a register that can be pending. -/
def pselRes (sel : BitVec 5) : List Nat := if sel.toNat % 16 = 0 then [] else [128 + sel.toNat % 16]

/-- The lane mask of a selector (R65, R66). -/
def pselMask (r : LRegs) (sel : BitVec 5) : W64 :=
  let p := regP r (sel.toNat % 16)
  if sel.getLsbD 4 then ~~~p else p

/-- The selector lets a scalar, matrix or move operation act: bit 0 of the mask (R66). -/
def pselOn (r : LRegs) (sel : BitVec 5) : Bool := (pselMask r sel).getLsbD 0

/-! ### Trackers (R89 to R94) -/

/-- The granules of `n` bytes at an address, as a tracked range. -/
def rngOf (pa n : Nat) (wr : Bool) : List Rng := if n = 0 then [] else [⟨pa / 64, (pa + n - 1) / 64, wr⟩]

/-- Two ranges conflict (R91). -/
def rngConflict (a b : Rng) : Bool := decide (a.lo ≤ b.hi ∧ b.lo ≤ a.hi) && (a.wr || b.wr)

/-- Ranges, with the indirect-source mark of an xstream, conflict with accesses (R90, R91). -/
def rngsConflict (rngs : List Rng) (indirect : Bool) (acc : List Rng) : Bool :=
  acc.any (fun a => rngs.any (rngConflict a) || (indirect && a.wr && tierDram (tierOf (64 * a.lo))))

def trkConflict (x : Landing) (acc : List Rng) : Bool := x.trk.any (fun t => rngsConflict t.rngs t.indirect acc)

/-- A tracker still to write a resource. -/
def trkWrites (x : Landing) (res : Nat) : Bool := x.trk.any (fun t => t.dst.contains res)

/-- A tracker's tile output buffer is still held: the image has not left, or the NIC has not taken it (R137, R143). -/
def holdsImage (t : Tracker) : Bool :=
  match t.op with
  | .mstore _ _ _ => !t.imgOut
  | .soc _ _ _ => true
  | _ => false

/-- The tile output buffers that are held (R137). -/
def outBuffers (x : Landing) : Nat := (x.trk.filter holdsImage).length

/-- The last granule of the oldest image held for memory leaves the landing (R137). -/
def imageLeaves : List Tracker → List Tracker
  | [] => []
  | t :: r =>
    match t.op with
    | .mstore _ _ _ => if t.imgOut then t :: imageLeaves r else { t with imgOut := true } :: r
    | _ => t :: imageLeaves r

/-- A tracker by its number. -/
def trkFind (x : Landing) (id : Nat) : Option Tracker := x.trk.find? (fun t => t.id == id)

def trkMod (id : Nat) (f : Tracker → Tracker) (x : Landing) : Landing :=
  { x with trk := x.trk.map (fun t => if t.id = id then f t else t) }

/-! ### Addresses of a landing (R171 to R174, R183, R184) -/

/-- The cause of a translation that failed (R107). -/
def xltCause : XltFail → Nat
  | .unmapped => 0x02
  | .perm => 0x03
  | .poison => 0x04

/-- The window of the own board slot reaches the module's own memory (R173). -/
def winLocal (d : Dev) (pa : Nat) : Nat :=
  match tierOf pa with
  | .board b => if b = d.fuses.boardSlot then pa % 0x100000000000 else pa
  | _ => pa

/-- The node and the offset a window address reaches (R173, R214, R267); none for an invalid window. -/
def winNode (d : Dev) (pa : Nat) : Option (Nat × Nat) :=
  match tierOf pa with
  | .board b =>
    ((List.range 6).findSome? (fun p =>
      let q := portGet d p
      match q.heldId with
      | some i => if q.st == .active && i.boardSlot.toNat == b then some i.node.toNat else none
      | none => none)).map (fun n => (n, pa % 0x100000000000))
  | .rack w =>
    let r := regGet d (memBase + 0x200 + 4 * w)
    if r.getLsbD 31 then some (r.toNat % 4096, (pa - 0x800000000000) % 0x020000000000) else none
  | _ => none

/-- A range of landing `l`'s context, translated and checked: its physical address and the pages it crosses, or the
cause and address of the fault. In a window, `win` 0 refuses, 1 finds the node, and 2 leaves the tier to the caller. -/
def reachRange (s : State) (l va n : Nat) (wr : Bool) (win : Nat) : Except (Nat × Nat) (Nat × Nat) :=
  match (xlateRange s (lndGet s.dev l).kern.slot va n wr).1 with
  | .error (e, a) => .error (xltCause e, a)
  | .ok (pa, c) =>
    if tierWindow (tierOf pa) then
      if win = 0 then .error (0x03, va)
      else if win = 2 then .ok (pa, c)
      else
        let q := winLocal s.dev pa
        if tierWindow (tierOf q) then
          (if (winNode s.dev q).isSome then .ok (q, c) else .error (0x02, va))
        else if (keyOf s.dev q).isSome && (keyOf s.dev (q + n - 1)).isSome then .ok (q, c)
        else .error (0x02, va)
    else if deadRange s.dev pa n then .error (0x06, va)
    else .ok (pa, c)

/-- A range lies in a landing's own store; one that leaves it is tracked like any other (log entry 80). -/
def inOwnStore (l pa n : Nat) : Bool := tierOf pa == .store l && tierOf (pa + n - 1) == .store l

/-- The cause of R107 for a bad granule. -/
def gstCause (g : GSt) : Nat := if g = .cold then 0x05 else 0x04

/-! ### Faults, machine checks, watchdog (R103 to R110, R450) -/

/-- A landing with its stored fault (R109, R110). -/
def recordFault (slot cause pc addr : Nat) (x : Landing) : Landing :=
  { x with flt := ⟨true, slot, cause, pc % 4096, BitVec.ofNat 64 addr⟩, phase := .halted }

/-- A landing of an aborted kernel leaves its bundle and drains (R104). -/
def stopLanding (x : Landing) : Landing :=
  if x.phase = .running ∨ x.phase = .waiting then
    { x with phase := if x.trk.isEmpty then .idle else .draining }
  else x

/-- The kernel of a landing aborts: the first fault is kept, every other landing of its set stops (R104). -/
def abortKernelOf (l cause : Nat) (d : Dev) : Dev :=
  let x := lndGet d l
  match runOf d x.kern.slot l with
  | none => d
  | some (r, k) =>
    let f := match k.fault with
      | some f => some f
      | none => some (x.kern.rank, cause)
    let d := ringPut x.kern.slot r { ringGet d x.kern.slot r with run := some { k with fault := f } } d
    k.landings.foldl (fun d m => if m = l then d else lndMod m stopLanding d) d

/-- A fault of a landing (R103, R104). -/
def raiseFault (l slot cause addr : Nat) (d : Dev) : Dev :=
  let x := lndGet d l
  abortKernelOf l cause (lndPut l (recordFault slot cause x.pipe.pc addr x) d)

/-- 24 hours of rack time. -/
def dayNs : Nat := 86400 * 10 ^ 9

/-- A machine-check record counts within 24 h of a stamp (R431, R450). -/
def mcheckNear (stamp : W64) (q : Nat) (e : Defect) : Bool :=
  decide (3 ≤ q) || decide (3 ≤ e.unit / 256) ||
    decide (stamp.toNat - e.detail.toNat ≤ dayNs ∧ e.detail.toNat - stamp.toNat ≤ dayNs)

/-- A machine check (R105, R107, R450): counted, recorded, reported, and at the second within 24 h the landing is due
for retirement. -/
def machineCheck (l cause : Nat) (d : Dev) : Dev :=
  let q := timeQuality d.tim
  let prior := d.health.defects.filter (fun e => e.kind == 7 && e.unit % 256 == l && mcheckNear d.tim.count q e)
  let d := cntInc (lndBase l + 0x150) d
  let d := addDefect 0x07 5 (l + 256 * q) d.tim.count d
  let d := emit 0x6002 l (BitVec.ofNat 64 cause) d
  let d := raiseFault l 7 cause 0 d
  if !prior.isEmpty && !(d.health.retirePending.getLsbD l) then
    let d := { d with health := { d.health with retirePending := setField d.health.retirePending l 1 1 } }
    emit 0x6003 l 0 (setDegraded 2 true d)
  else d

/-- The watchdog's expiry (R106): a core reset is asked for with hang_policy 1. -/
def raiseWatchdog (l : Nat) (d : Dev) : Dev :=
  let d := cntInc (lndBase l + 0x158) (cntInc (objCnt 0x605003) d)
  let d := emit 0x6001 l 0 (raiseFault l 7 0x0C 0 d)
  if objGet d 0x605001 = 1 then { d with rst := { d.rst with hangPending := true } } else d

/-- A tracker over its limit (R94). -/
def raiseTrkTimeout (l id : Nat) (d : Dev) : Dev :=
  raiseFault l 7 0x0B 0 (lndMod l (trkMod id (fun t => { t with timedOut := true })) d)

end Sys2Proof.Machine
end

