-- ==== Sys2Proof/Machine/NicDesc.lean ====
section
/-! DEFINITION. Descriptors: their fields, the checks of R321 and R344, and the arming of a trigger slot (R317, R318,
R321, R329 to R331, R343, R344). -/

namespace Sys2Proof.Machine

/-- Bytes of an atomic's element by type (R323). -/
def atomicSize (ty : Nat) : Nat := if ty = 1 then 4 else if ty = 2 then 2 else 8

/-- The longest range, 256 MiB (R81, R321). -/
def rangeMax : Nat := 2 ^ 28

/-- The function and type of an atomic are defined (R323). -/
def atomicLegal (fn ty : Nat) : Bool := (decide (fn ≤ 4) && ty == 0) || (fn == 5 && (ty == 1 || ty == 2))

def descDst (x : BitVec 512) : Nat := dField x 2 2 % 4096
def descLaddr (x : BitVec 512) : Nat := dField x 8 8
def descRaddr (x : BitVec 512) : Nat := dField x 16 8
def descLen (x : BitVec 512) : Nat := dField x 24 8
def descFn (x : BitVec 512) : Nat := dField x 24 1
def descTy (x : BitVec 512) : Nat := dField x 25 1

/-- The high bits of the three 12-bit fields are 0. -/
def highBits (x : BitVec 512) : Bool := fieldN x 31 28 != 0 || fieldN x 47 44 != 0 || fieldN x 63 60 != 0

/-- A data descriptor meets bad_field (R317, R318, R321). -/
def dataFieldBad (x : BitVec 512) (soc trig : Bool) : Bool :=
  let op := descOp x
  let cls := descClass x
  let fn := descFn x
  let ty := descTy x
  fieldN x 15 14 != 0 || highBits x || decide (2 ^ 41 ≤ descRaddr x) ||
  (soc && op != 1) ||
  ((op == 2 || op == 3) && (cls == 0 || descFlag x 4)) ||
  (op == 4 && !(descFlag x 4)) ||
  (!soc && (op == 1 || op == 2) && descLen x == 0) || (!soc && op != 3 && decide (rangeMax < descLen x)) ||
  (op == 3 && (!(atomicLegal fn ty) || dField x 26 6 != 0 || (ty == 1 && dField x 44 4 != 0) ||
    (ty == 2 && dField x 42 6 != 0))) ||
  (op != 3 && dField x 40 8 != 0) ||
  (!(op == 3 && fn == 4) && dField x 48 8 != 0) ||
  (if trig then fieldN x 463 460 != 0 else dField x 56 8 != 0)

/-- A collective descriptor meets bad_field (R343, R344). -/
def collFieldBad (x : BitVec 512) (soc trig : Bool) : Bool :=
  let op := descOp x
  let shape := dField x 41 1
  let fan := shape % 16
  let tree := shape / 16 % 2 == 1
  let ty := shape / 32 % 4
  let len := descLen x
  let cap := dField x 44 4
  let two : Nat := 2 ^ 21
  descClass x != 1 || descFlag x 3 || fieldN x 15 14 != 0 || highBits x || (soc && op != 0x13) ||
  (op == 0x10 && (len == 0 || decide (two < len) || !tree || decide (fan < 2 ∨ 8 < fan))) ||
  (op == 0x11 && (len % 64 != 0 || len == 0 || decide (two < len) || (tree && decide (fan < 2 ∨ 8 < fan)) ||
    decide (1 < ty))) ||
  (op == 0x12 && (len % 64 != 0 || len == 0 || decide (262144 < len) || cap == 0 || decide (32768 < cap) || shape != 0)) ||
  (op != 0x12 && cap != 0) ||
  (op == 0x13 && (dField x 16 8 % 64 != 0 || (!soc && decide (rangeMax < len)))) ||
  (if trig then fieldN x 463 460 != 0 else dField x 56 8 != 0)

/-- A descriptor meets misaligned (R321). -/
def descMisaligned (x : BitVec 512) (soc : Bool) : Bool :=
  let op := descOp x
  (op == 2 && descLaddr x % 64 != descRaddr x % 64) ||
  (op == 3 && (descRaddr x % atomicSize (descTy x) != 0 || descLaddr x % atomicSize (descTy x) != 0)) ||
  (soc && op == 1 && descRaddr x % 64 != 0)

/-- The lowest of the causes 0x43 and 0x44 that the pages of a local range meet, 0xFF for none, with the state after the
walks (R321). -/
def rangeScan : Nat → State → Nat → Nat → Nat → Bool → Nat → Nat × State
  | 0, s, _, _, _, _, c => (c, s)
  | n + 1, s, slot, va, len, wr, c =>
    if len = 0 then (c, s)
    else
      let (r, s) := xlate1 s slot va wr
      let m := min len (4096 - va % 4096)
      let c' := match r with
        | .error .perm => 0x44
        | .error _ => 0x43
        | .ok _ => c
      rangeScan n s slot (va + m) (len - m) wr (min c c')

/-- The cause a local range gives, if any, or its physical address; `dram` asks for stack or mezzanine memory (R318,
R321). The state is that after the walks (R183, R215). -/
def localCause (s : State) (slot va len : Nat) (wr dram : Bool) : Except Nat Nat × State :=
  let (c, s) := rangeScan (len / 4096 + 2) s slot va len wr 0xFF
  if c ≠ 0xFF then (.error c, s)
  else
    match xlateRange s slot va len wr with
    | (.error (.unmapped, _), s) => (.error 0x43, s)
    | (.error _, s) => (.error 0x45, s)
    | (.ok (pa, _), s) =>
      if (if dram then tierDram (tierOf pa) else tierModule (tierOf pa)) && !(deadRange s.dev pa len) then (.ok pa, s)
      else (.error 0x45, s)

/-- The counters a descriptor uses are bad (R321). -/
def descCtrBad (d : Dev) (slot : Nat) (x : BitVec 512) (lctr : Option Nat) (trig : Bool) : Bool :=
  (match lctr with
  | some c => !(ctrOwned d slot c)
  | none => false) ||
  (match descRctr x with
  | some c => c == 0xFFF
  | none => false) ||
  (trig && !(ctrOwned d slot (trigCtr x)))

/-- The op is defined. -/
def descOpLegal (op : Nat) : Bool := decide ((1 ≤ op ∧ op ≤ 4) ∨ (0x10 ≤ op ∧ op ≤ 0x13))

/-- The checks that need no translation: the lowest cause met (R321); `lctr` is the local counter in use. -/
def descFieldCause (x : BitVec 512) (soc trig : Bool) : Option Nat :=
  if !(descOpLegal (descOp x)) then some 0x40
  else if (if descColl x then collFieldBad x soc trig else dataFieldBad x soc trig) then some 0x41
  else if descMisaligned x soc then some 0x42
  else none

/-- The local range of a data descriptor: address, length, written, stack or mezzanine only (R318). -/
def dataRange (x : BitVec 512) : Option (Nat × Nat × Bool × Bool) :=
  match descOp x with
  | 1 => some (descLaddr x, descLen x, false, false)
  | 2 => some (descLaddr x, descLen x, true, true)
  | 3 => if descLaddr x = 0 then none else some (descLaddr x, atomicSize (descTy x), true, true)
  | _ => none

/-- A data descriptor's checks in the order of their causes; a good one gives the physical address of its local range,
0 where it has none. -/
def dataCheck (s : State) (slot : Nat) (x : BitVec 512) (lctr : Option Nat) (soc trig : Bool) :
    Except Nat Nat × State :=
  match descFieldCause x soc trig with
  | some c => (.error c, s)
  | none =>
    let (r, s) : Except Nat Nat × State := if soc then (.ok 0, s) else match dataRange x with
      | none => (.ok 0, s)
      | some (va, n, wr, dram) => localCause s slot va n wr dram
    match r with
    | .error c => (.error c, s)
    | .ok pa => (if descCtrBad s.dev slot x lctr false then .error 0x46 else .ok pa, s)

/-- Trigger slots of a context slot, first and count, and those armed (R315). -/
def trigCount (d : Dev) (slot : Nat) : Nat := fieldN (ctxCfg d slot) 194 180
def trigArmed (d : Dev) (slot : Nat) : List TrigEnt := d.nic.trig.filter (fun t => t.slot == slot)

/-- The lowest free trigger slot of a context slot. -/
def trigFree (d : Dev) (slot : Nat) : Option Nat :=
  let b := fieldN (ctxCfg d slot) 208 195
  ((List.range (trigCount d slot)).find? (fun i => !(d.nic.trig.any (fun t => t.num == b + i)))).map (b + ·)

/-- The cause an arming fails with, if any: its fields, its counters, a free slot (R321, R329, R331). -/
def armCause (d : Dev) (slot : Nat) (x : BitVec 512) : Option Nat :=
  match descFieldCause x false true with
  | some c => some c
  | none =>
    if descCtrBad d slot x (descLctr x) true then some 0x46
    else if (trigFree d slot).isNone then some 0x47
    else none

/-- An xtrig's arming from the descriptor at a physical address (R329, R330): a slot armed and checked at once, or a
record with kind 8; `xctr` is the X-slot counter that counts the arming. -/
def armTrigger (slot pa : Nat) (xctr : Option Nat) (kernel : Option (Nat × Nat)) (s : State) : State :=
  let (r, s) := readRange s pa 64
  let x := payloadOf r.bytes
  let fail (c : Nat) : State :=
    finishDesc ⟨slot, descTag x, 0x0D, 0, c, 8, 0, 0, descFlag x 2, xctr⟩ s
  if r.poison then finishDesc ⟨slot, 0, 0x0D, 0, 0x4B, 8, 0, 0, false, xctr⟩ s
  else
    match armCause s.dev slot x with
    | some c => fail c
    | none =>
      let num := (trigFree s.dev slot).getD 0
      let t : TrigEnt := ⟨num, slot, x, kernel⟩
      let d := cntInc (nicBase + 0x930) { s.dev with nic := { s.dev.nic with trig := snoc s.dev.nic.trig t } }
      let s := ctrUpdates ((xctr.map (fun c => (⟨c, 1, false⟩ : CtrUpd))).toList) { s with dev := d }
      if s.dev.nic.trig.contains t && trigHolds (ctrGet s.dev (trigCtr x)) x then
        let (s, us) := fireTrig t (ctrGet s.dev (trigCtr x)).err s
        ctrUpdates us s
      else s

end Sys2Proof.Machine
end

