-- ==== Sys2Proof/Machine/TimeBase.lean ====
section
/-! DEFINITION. The passing of time, the lock states with their flags, and the end of scheduled actions that cannot be
applied (R28, R36 to R39, R47 to R49). -/

namespace Sys2Proof.Machine

/-! ### The count (R36, R38) -/

/-- Counts to one nanosecond of slewing: 10^4 at 100 ppm, 10^3 at 1,000 ppm; none where the state is not corrected
(R38). -/
def slewRate (t : Tim) : Option Nat :=
  match t.state with
  | .locked => some 10000
  | .acquiring => some 1000
  | .holdover => if t.estPresent || t.pulseHeld then some 10000 else none
  | _ => none

/-- A clock `R` to 1 or `a` to `R` faster or slower than its source, after `n` ns of the source from the fraction `acc`,
with `lim` corrections left: its own ns, the corrections made, and the fraction then. A correction of a faster clock comes
before the ns that follows it, so that no value of the count is passed over (R28). -/
def rateOut (slower : Bool) (a R lim acc n : Nat) : Nat × Nat × Nat :=
  if slower then
    let c := min lim ((acc + n * a) / R)
    (n - c, c, acc + n * a - c * R)
  else
    let c := min lim ((acc + n * a - 1) / R)
    (n + c, c, acc + n * a - c * R)

/-- The same clock, after `n` ns of its own: the ns of its source, the corrections made, and the fraction then. -/
def rateIn (slower : Bool) (a R lim acc n : Nat) : Nat × Nat × Nat :=
  if slower then
    let c := min lim (if acc + n * a < R then 0 else (acc + n * a - R) / (R - a) + 1)
    (n + c, c, acc + (n + c) * a - c * R)
  else
    let c := min lim ((acc + n * a) / (R + a))
    (n - c, c, acc + (n - c) * a - c * R)

/-- Sum of the learnt corrections in 10^-6 ns, and the time they cover in ns (R38). -/
def learnSum (l : List (Int × Nat)) : Int × Nat := l.foldl (fun s e => (s.1 + e.1 * (e.2 : Int), s.2 + e.2)) (0, 0)

/-- The first `room` ns of a list of corrections. -/
def learnTrim : Nat → List (Int × Nat) → List (Int × Nat)
  | _, [] => []
  | room, (p, m) :: t => if room = 0 then [] else if m ≤ room then (p, m) :: learnTrim (room - m) t else [(p, room)]

/-- A correction of `ppm` over `n` ns joins the last 2^30 ns of them (R38). -/
def learnAdd (ppm : Int) (n : Nat) (l : List (Int × Nat)) : List (Int × Nat) :=
  if n = 0 then l
  else learnTrim (2 ^ 30) (match l with
    | (p, m) :: t => if p = ppm then (p, m + n) :: t else (ppm, n) :: l
    | [] => [(ppm, n)])

/-- Estimates arrive in ACQUIRING or LOCKED: the corrections made are learnt from (R38). -/
def learning (t : Tim) : Bool := (t.state == .acquiring || t.state == .locked) && t.estPresent

/-- The count runs at the learnt frequency: where it is not corrected by estimates (R38). -/
def free (t : Tim) : Bool :=
  match t.state with
  | .unlocked => true
  | .lost => true
  | .holdover => !t.estPresent
  | _ => false

/-- The learnt frequency as a rate: whether it slows the count, and a correction of `a` in `R` ns (R38). -/
def learntRate (t : Tim) : Bool × Nat × Nat :=
  let s := learnSum t.learn
  if free t && decide (0 < s.2) then (decide (s.1 < 0), s.1.natAbs, s.2 * 10 ^ 6) else (false, 0, t.frac + 1)

/-- The slewing of a state as a rate: whether it slows the count, one ns in `R`, and the ns left to correct (R38). -/
def slewing (t : Tim) : Bool × Nat × Nat :=
  match slewRate t with
  | none => (false, 1, 0)
  | some r => (decide (0 < t.slew), r, t.slew.natAbs)

/-- Actions for the next boundary are for the boundary that the count passes or reaches; `new` is the count's new value
(R51, R52). -/
def schedPass (old new : Nat) (l : List Sched) : List Sched :=
  let b := (old / 2 ^ 20 + 1) * 2 ^ 20
  if b ≤ new then l.map (fun a => if a.boundary = 0 then { a with boundary := b } else a) else l

/-- What the passing of `local_` ns of local time leaves, in which the count grew by `grown`, `done` ns were slewed out and
the fractions became `acc` and `frac` (R38). -/
def Tim.passed (local_ grown done acc frac : Nat) (t : Tim) : Tim :=
  let (slower, r, lim) := slewing t
  let busy := if done = lim then min local_ (lim * r - t.slewAcc) else local_
  let ppm : Int := if lim = 0 then 0 else if slower then -(Int.ofNat (10 ^ 6 / r)) else Int.ofNat (10 ^ 6 / r)
  let new := t.count + BitVec.ofNat 64 grown
  { t with
    now := t.now + local_
    count := new
    slew := if lim = 0 then t.slew else if slower then Int.ofNat (lim - done) else -(Int.ofNat (lim - done))
    slewAcc := if done = lim then (if lim = 0 then t.slewAcc else 0) else acc
    learn := if learning t then learnAdd 0 (local_ - busy) (learnAdd ppm busy t.learn) else t.learn
    frac := frac
    lockedNs := if t.state = .locked then min (2 ^ 30) (t.lockedNs + local_) else t.lockedNs
    sched := schedPass t.count.toNat new.toNat t.sched }

/-- `n` ns of local time pass: the count follows at its rate (R38; log entry 73). -/
def Tim.advance (n : Nat) (t : Tim) : Tim :=
  let (slow1, a, r1) := learntRate t
  let (n1, _, frac) := rateOut slow1 a r1 (t.frac + n * a) t.frac n
  let (slower, r, lim) := slewing t
  let (n2, c, acc) := rateOut slower 1 r lim t.slewAcc n1
  t.passed n n2 c acc frac

/-- The count grows by `n`: the local time follows (R38, R46). -/
def Tim.advanceCount (n : Nat) (t : Tim) : Tim :=
  let (slower, r, lim) := slewing t
  let (n1, c, acc) := rateIn slower 1 r lim t.slewAcc n
  let (slow1, a, r1) := learntRate t
  let (n2, _, frac) := rateIn slow1 a r1 (t.frac + n1 * a) t.frac n1
  t.passed n2 n c acc frac

/-- `n` ns pass; the count stands while the hub uncore is held (R29). -/
def advance (n : Nat) (d : Dev) : Dev :=
  if hubUp d then { d with tim := d.tim.advance n } else { d with tim := { d.tim with now := d.tim.now + n } }

/-- The count grows by `n`; `n` ns pass while the hub uncore is held, where it stands (R29). -/
def advanceCount (n : Nat) (d : Dev) : Dev :=
  if hubUp d then { d with tim := d.tim.advanceCount n } else { d with tim := { d.tim with now := d.tim.now + n } }

/-- Local time moves on to a moment, unless it is past it. -/
def advanceTo (t : Nat) (d : Dev) : Dev := advance (t - d.tim.now) d

/-- The count moves on to the next multiple of `n`, whatever its rate; a count at a multiple stays (R44, R46). -/
def advanceWindow (n : Nat) (d : Dev) : Dev := advanceCount ((n - d.tim.count.toNat % n) % n) d

/-- The count moves on to the next boundary of windows of length `n` whose last begun is `last`; a count at the boundary of
a window not yet begun stays (R44, R46). -/
def toBoundary (n last : Nat) (d : Dev) : Dev :=
  if d.tim.count.toNat / n = last then advanceCount (n - d.tim.count.toNat % n) d else advanceWindow n d

/-! ### Scheduled actions cancelled (R39, R47, R52) -/

/-- One pending action is cancelled: counted, reported, and a lock-step start ends its comparison (R39, R485). -/
def cancelOne (a : Sched) (d : Dev) : Dev :=
  let d := { d with tim := { d.tim with sched := d.tim.sched.filter (fun x => x != a) } }
  let d := emit 0x3003 0 (BitVec.ofNat 64 a.boundary) (timEvtBit 6 (cntInc (objCnt 0x30300A) d))
  match a.kind with
  | .lsStart _ _ => lsEnd 6 d
  | _ => d

/-- The pending actions that a predicate selects are cancelled in the order of acceptance. -/
def cancelSched (p : Sched → Bool) (d : Dev) : Dev := (d.tim.sched.filter p).foldl (fun d a => cancelOne a d) d

def schedIsLs (a : Sched) : Bool :=
  match a.kind with
  | .lsStart _ _ => true
  | _ => false

/-! ### Flags and states (R37, R47, R48) -/

/-- The flags of TIM_STATUS whose changes send an event (R48). -/
def timFlags (t : Tim) : Nat := fieldN (timStatus t) 8 4

/-- A change of the rack time unit: a changed flag sends event 0x3002, and a bound or a hold that begins sets its bit of
TIM_EVT (R47, R48, R58). -/
def timChange (f : Tim → Tim) (d : Dev) : Dev :=
  let old := d.tim
  let d := { d with tim := f d.tim }
  let d := if d.tim.expressWithdrawn && !old.expressWithdrawn then timEvtBit 1 (cntInc (objCnt 0x303007) d) else d
  let d := if old.expressWithdrawn && !d.tim.expressWithdrawn then timEvtBit 2 d else d
  let d := if d.tim.backwardHold && !old.backwardHold then timEvtBit 7 d else d
  let d := if d.tim.master != old.master then timEvtBit 3 d else d
  if timFlags d.tim = timFlags old then d
  else emit 0x3002 0 (BitVec.ofNat 64 (fieldN (timStatus d.tim) 15 0)) d

/-- Deadlines that are suspended are dropped from the operations that carry one (R49). -/
def dropDeadlines (d : Dev) : Dev :=
  let n := (d.nic.insts.filter (fun i => i.deadline != 0)).length
  cntAdd (objCnt 0x303008) n { d with nic := { d.nic with insts := d.nic.insts.map (fun i => { i with deadline := 0 }) } }

/-- A lock state entered with what it brings (R37, R47, R48). -/
def enterLock (st : LockState) (t : Tim) : Tim :=
  let t := { t with
    state := st, okRun := 0, badRun := 0, pulseHeld := false, backwardHold := false, backwardBy := 0, frac := 0 }
  let t := match st with
    | .locked => { t with everLocked := true, alignDue := true }
    | .acquiring => { t with windowsUnaligned := true, alignDue := false }
    | .lost => { t with windowsUnaligned := true, alignDue := false, slew := 0, slewAcc := 0, estPresent := false }
    | .unlocked => { t with slew := 0, slewAcc := 0, estPresent := false }
    | .holdover => { t with slew := 0, slewAcc := 0, estPresent := false }
  { t with expressWithdrawn := t.expressWithdrawn || !(boundInForce t) }

/-- A transition of the lock state: its event, its counters, the degraded cause time_lost, deadlines and lock-step
starts (R37, R47, R451). -/
def setLock (st : LockState) (d : Dev) : Dev :=
  if d.tim.state = st then d
  else
    let old := d.tim.state
    let d := timChange (enterLock st) d
    let d := timEvtBit 0 d
    let d := emit 0x3001 0 (BitVec.ofNat 64 (old.code + 256 * st.code)) d
    let d := cntIf (st == .lost) (objCnt 0x303006) (cntIf (st == .holdover) (objCnt 0x303005) d)
    let d := setDegraded 6 (st == .lost) d
    if st = .locked ∨ st = .holdover then d
    else cancelSched schedIsLs (dropDeadlines d)

end Sys2Proof.Machine
end

