-- ==== Sys2Proof/Machine/CollBase.lean ====
section
/-! DEFINITION. Collective operations: their cells, their parts, and how they complete or abort (R340 to R342, R348 to
R356, R472 to R477). -/

namespace Sys2Proof.Machine

/-- The name of an operation: context and generation, group, number (R340). -/
abbrev CollKey := Nat × Nat × Nat

/-- Group, number and chunk index in the offset field (R341). -/
def collOffset (group num chunk : Nat) : BitVec 35 := BitVec.ofNat 35 (group % 4096 * 2 ^ 23 + num % 256 * 2 ^ 15 + chunk % 2 ^ 15)

def collGroup (c : Cell) : Nat := c.offset.toNat / 2 ^ 23
def collNum (c : Cell) : Nat := c.offset.toNat / 2 ^ 15 % 256
def collChunk (c : Cell) : Nat := c.offset.toNat % 2 ^ 15
def collKeyOf (c : Cell) : CollKey := (cellCtx c, collGroup c, collNum c)

def Inst.key (x : Inst) : CollKey := (x.ctx, x.group, x.num)

def instFind (d : Dev) (k : CollKey) : Option Inst := d.nic.insts.find? (fun x => x.key == k)

def instMod (k : CollKey) (f : Inst → Inst) (d : Dev) : Dev :=
  { d with nic := { d.nic with insts := d.nic.insts.map (fun x => if x.key = k then f x else x) } }

/-- A chunk no part of which has arrived. -/
def RChunk.none : RChunk := ⟨[], false, false⟩

/-- A receive slot nothing has arrived for. -/
def XSlot.none : XSlot := ⟨Option.none, [], 0, 0, false⟩

def Inst.chunk (x : Inst) (c : Nat) : RChunk := spGet RChunk.none x.chunks c

def xslotGet (x : Inst) (r : Nat) : XSlot := spGet XSlot.none x.xslots r

/-! ### Ranks (R348) -/

def Inst.size (x : Inst) : Nat := x.nodes.length
def Inst.virt (x : Inst) (rank : Nat) : Nat := (rank + x.size - x.root) % x.size
def Inst.rankOf (x : Inst) (v : Nat) : Nat := (v + x.root) % x.size
def Inst.me (x : Inst) : Nat := x.virt x.rank

/-- Children and parent of a virtual rank (R348). -/
def Inst.kids (x : Inst) : List Nat :=
  ((List.range x.fan).map (fun i => x.fan * x.me + 1 + i)).filter (fun v => decide (v < x.size))

def Inst.parent (x : Inst) : Option Nat := if x.me = 0 then none else some ((x.me - 1) / x.fan)

/-- The virtual ranks whose partials a member of a reduce adds to its own (R349). -/
def Inst.inputs (x : Inst) : List Nat :=
  if x.tree then x.kids else if x.me + 1 < x.size then [x.me + 1] else []

/-- Where a member's partial goes; none at the root (R349). -/
def Inst.output (x : Inst) : Option Nat := if x.me = 0 then none else if x.tree then x.parent else some (x.me - 1)

/-- The rank of a node in the group. -/
def Inst.rankOfNode (x : Inst) (n : Nat) : Option Nat := x.nodes.findIdx? (fun m => m == n)

/-! ### Cells (R341, R342) -/

/-- A cell of an operation. -/
def collCell (x : Inst) (rank op chunk ctr n : Nat) (bytes : List Byte) (poison last : Bool) : Cell :=
  { cellZero with
    dst := BitVec.ofNat 12 (x.nodes[rank]?.getD 0), cls := 1, op := BitVec.ofNat 6 op, ctx := BitVec.ofNat 12 (x.ctx / 16),
    gen := BitVec.ofNat 4 x.ctx, counter := BitVec.ofNat 12 ctr, len := BitVec.ofNat 6 (n - 1),
    offset := collOffset x.group x.num chunk, last := last, poison := poison, payload := payloadOf bytes }

/-- A cell whose acknowledgement the member's part waits for. -/
def collSend (k : CollKey) (rank op chunk ctr n : Nat) (bytes : List Byte) (poison last : Bool) (d : Dev) : Dev :=
  match instFind d k with
  | none => d
  | some x =>
    instMod k (fun x => { x with unacked := x.unacked + 1 })
      (sendCell (collCell x rank op chunk ctr n bytes poison last) (.inst x.ctx x.group x.num) .none d)

/-- The payload of a COLL_CTRL (R342). -/
def ctrlBytes (kind status rank count : Nat) : List Byte :=
  leBytes 1 kind ++ leBytes 1 status ++ leBytes 2 rank ++ leBytes 4 count

/-- A control cell nothing waits for: DONE or ABORT. -/
def collNotice (x : Inst) (rank kind status named : Nat) (d : Dev) : Dev :=
  sendCell (collCell x rank 0x12 0 0 8 (ctrlBytes kind status named 0) false true) .notice .none d

/-- The ranks beside the member's own. -/
def Inst.others (x : Inst) : List Nat := (List.range x.size).filter (fun r => r != x.rank)

/-! ### Completion and abort (R354 to R356) -/

def CollKind.code : CollKind → Nat
  | .bcast => 4 | .reduce => 5 | .exchange => 6

/-- The cells of an operation that has ended: those sent are waited for no longer, and those not yet sent are not sent
(R355). -/
def releaseCells (k : CollKey) (d : Dev) : Dev :=
  let own : CellOwner := .inst k.1 k.2.1 k.2.2
  { d with nic := { d.nic with
      resend := d.nic.resend.map (fun o => if o.owner = own then { o with owner := .notice } else o)
      waitq := d.nic.waitq.filter (fun o => o.owner != own) } }

/-- A member completes: its record, its local counter, its slot (R354). -/
def instEnd (x : Inst) (status cause detail : Nat) (s : State) : State :=
  let d := releaseCells x.key s.dev
  let d := { d with nic := { d.nic with
    insts := d.nic.insts.filter (fun y => y.key != x.key), doneInst := snoc d.nic.doneInst x.key } }
  finishDesc ⟨x.slot, x.tag, status, 0, cause, x.kind.code, x.confirmed, detail, x.stamp, x.lctr⟩ { s with dev := d }

/-- A member aborts: ABORT to every other member, and its own end (R355). -/
def instAbort (x : Inst) (status rank cause : Nat) (s : State) : State :=
  let d := x.others.foldl (fun d r => collNotice x r 3 status rank d) (cntInc (nicBase + 0x958) s.dev)
  instEnd x status cause rank { s with dev := d }

/-- The status of a member that completes with DONE (R354). -/
def Inst.okStatus (x : Inst) : Nat :=
  if x.newUe then 5 else if x.poison then 0xA else if 0 < x.overflow then 9 else 0

/-- Chunks of an operation's data. -/
def Inst.nchunks (x : Inst) : Nat := ceilDiv x.len 64

/-- Every arrival and every write of the member's part is done (R348, R350, R353). -/
def Inst.dataDone (x : Inst) : Bool :=
  match x.kind with
  | .bcast => x.ownRead && (x.me == 0 || decide (x.nchunks ≤ x.got.length))
  | .reduce => (List.range x.nchunks).all (fun c => (x.chunk c).done)
  | .exchange => x.ownRead && (List.range x.size).all (fun r => (xslotGet x r).complete)

/-- The member's part is finished. -/
def Inst.partDone (x : Inst) : Bool := x.dataDone && x.unacked == 0

/-- The moment at which a member finishes its part (R354). -/
def instFinished (k : CollKey) (s : State) : State :=
  { s with dev := instMod k (fun x => { x with finishAt := x.finishAt.or (some s.dev.tim.now) }) s.dev }

/-- What follows when a member's part may have become finished: FINISH, or DONE at the coordinator (R354). -/
def instSettle (k : CollKey) (s : State) : State :=
  match instFind s.dev k with
  | none => s
  | some x =>
    if !x.partDone then s
    else if x.rank = x.root then
      let s := instFinished k s
      if (x.others.all (fun r => x.finished.contains r)) then
        let d := x.others.foldl (fun d r => collNotice x r 2 0 0 d) s.dev
        instEnd x x.okStatus 0xFF (if x.okStatus = 9 then x.overflow else 0) { s with dev := d }
      else s
    else if x.finishSent then s
    else
      let s := instFinished k s
      let d := instMod k (fun x => { x with finishSent := true }) s.dev
      { s with dev := collSend k x.root 0x12 0 0 8 (ctrlBytes 1 0 x.rank 0) false true d }

/-- The rank that a member with an unfinished part names at its deadline (R356). -/
def Inst.missing (x : Inst) : Nat :=
  let ownMissing := match x.kind with
    | .bcast => !x.ownRead
    | .exchange => !x.ownRead
    | .reduce => (List.range x.nchunks).any (fun c =>
        !((x.chunk c).arr.any (fun a => a.1 == x.me)))
  if ownMissing then x.rank
  else
    match x.kind with
    | .bcast => (x.parent.map x.rankOf).getD x.rank
    | .reduce =>
      let late (v : Nat) : Bool := (List.range x.nchunks).any (fun c =>
        !((x.chunk c).arr.any (fun a => a.1 == v)))
      if x.tree then (((x.inputs.filter late).map x.rankOf).min?).getD x.rank
      else ((x.inputs.head?).map x.rankOf).getD x.rank
    | .exchange => ((List.range x.size).find? (fun r => !(xslotGet x r).complete)).getD x.rank

/-- A member's deadline passes (R356). -/
def instLate (x : Inst) (s : State) : State :=
  instAbort x 8 x.missing 0xFF { s with dev := cntInc (nicBase + 0x960) s.dev }

/-! ### Counters of timing-dependent choices (R472, R474) -/

/-- `n` choices of one kind: combine 8, atomic 0x10, overflow 0x18, reorder 0x20. -/
def nondet (slot kind n : Nat) (d : Dev) : Dev :=
  cntAdd (nicBase + 0x2000 + 0x40 * slot + kind) n (cntAdd (nicBase + 0x2000 + 0x40 * slot) n d)

/-- The slot runs in reproducible mode (R475). -/
def reproSlot (d : Dev) (slot : Nat) : Bool := d.nic.repro.getLsbD slot

/-! ### Writes of the member (R348, R349, R353) -/

/-- Bytes written into an operation's range, which its start translated (R316, R348, R349). -/
def collWrite (slot pa : Nat) (bytes : List Byte) (poison : Bool) (s : State) : State :=
  writeBytes pa (bytes.map some) poison (some slot) s

/-- The result counter's increment, its flag set for a poisoned chunk. -/
def resInc (x : Inst) (poison : Bool) (s : State) : State :=
  match x.resCtr with
  | some c => ctrUpdates [⟨c, 1, poison⟩] s
  | none => s

/-- A chunk of working space left without a defined value (R349): eight free values. -/
def freeChunk (slot pa : Nat) (s : State) : State :=
  let (b, d) := (List.range 8).foldl (fun (acc : List Byte × Dev) _ =>
    let (v, d) := drawFree acc.2
    (acc.1 ++ leBytes 8 v.toNat, d)) ([], s.dev)
  collWrite slot pa b false { s with dev := d }

/-! ### Broadcast (R348) -/

/-- A chunk sent to each child. -/
def bcastForward (k : CollKey) (c : Nat) (bytes : List Byte) (poison : Bool) (d : Dev) : Dev :=
  match instFind d k with
  | none => d
  | some x => x.kids.foldl (fun d v =>
      collSend k (x.rankOf v) 0x10 c 0 bytes.length bytes poison (c + 1 == x.nchunks) d) d

/-- A chunk arrives at a member that is not the root. -/
def bcastArrive (x : Inst) (c : Nat) (bytes : List Byte) (poison : Bool) (s : State) : State :=
  if x.got.contains c || decide (x.nchunks ≤ c) then s
  else
    let s := collWrite x.slot (x.dst + 64 * c) bytes poison s
    let d := instMod x.key (fun y => { y with got := snoc y.got c, poison := y.poison || poison }) s.dev
    let s := resInc x poison { s with dev := d }
    { s with dev := bcastForward x.key c bytes poison s.dev }

/-! ### Reduce (R349, R472, R476) -/

/-- The sum of two chunks, element by element, rounded to nearest even (R349). -/
def addChunk (a b : List (BitVec 32)) : List (BitVec 32) :=
  a.zipWith (fun x y => BitVec.ofNat 32 (fAdd fp32 .nearest x.toNat y.toNat)) b

/-- Bytes of a chunk of FP32 values. -/
def chunkBytes (l : List (BitVec 32)) : List Byte := l.flatMap (fun x => leBytes 4 x.toNat)

/-- The FP32 values of 64 bytes. -/
def chunkVals (b : List Byte) : List (BitVec 32) := (List.range 16).map (fun i => BitVec.ofNat 32 (leNat ((b.drop (4 * i)).take 4)))

/-- Member order: own part first, then the children in ascending virtual rank (R472). -/
def Inst.memberOrder (x : Inst) : List Nat := x.me :: x.inputs

/-- The combination of a complete chunk: a chain adds its own part to the partial; a tree adds in order of arrival, or
in member order in reproducible mode (R349, R476). -/
def combineChunk (x : Inst) (repro : Bool) (arr : List (Nat × List (BitVec 32))) : List (BitVec 32) :=
  let pick (v : Nat) : List (BitVec 32) := ((arr.find? (fun a => a.1 == v)).map (fun a => a.2)).getD []
  let order := if !x.tree then x.inputs ++ [x.me] else if repro then x.memberOrder else arr.map (fun a => a.1)
  match order with
  | [] => []
  | v :: t => t.foldl (fun acc w => addChunk acc (pick w)) (pick v)

/-- A part of chunk `c` arrives at a member: its own, or a partial; the last one makes the member's step (R349). -/
def reduceArrive (k : CollKey) (c v : Nat) (vals : List (BitVec 32)) (poison : Bool) (s : State) : State :=
  match instFind s.dev k with
  | none => s
  | some x =>
    let q := x.chunk c
    if q.done || q.arr.any (fun a => a.1 == v) || !(x.memberOrder.contains v) || decide (x.nchunks ≤ c) then s
    else
      let arr := snoc q.arr (v, vals)
      let bad := q.poison || poison
      let full := x.memberOrder.all (fun w => arr.any (fun a => a.1 == w))
      let repro := reproSlot s.dev x.slot
      let d := instMod k (fun y => { y with
        chunks := spPut RChunk.none c ⟨arr, bad, full⟩ y.chunks, poison := y.poison || poison }) s.dev
      if !full then { s with dev := d }
      else
        let sum := chunkBytes (combineChunk x repro arr)
        let odd := x.tree && !repro && arr.map (fun a => a.1) != x.memberOrder
        let d := if odd then nondet x.slot 8 1 d else d
        match x.output with
        | some p =>
          freeChunk x.slot (x.dst + 64 * c)
            { s with dev := collSend k (x.rankOf p) 0x10 c 0 64 sum bad (c + 1 == x.nchunks) d }
        | none => resInc x bad (collWrite x.slot (x.dst + 64 * c) sum bad { s with dev := d })

/-! ### Exchange (R351 to R353, R472, R477) -/

/-- Bytes of a receive slot's header (R352). -/
def Inst.xHead (x : Inst) : Nat := 64 * ceilDiv (16 + 2 * x.cap) 64

/-- Address of the receive slot of a rank. -/
def Inst.xBase (x : Inst) (r : Nat) : Nat := x.dst + r * (x.xHead + x.cap * x.len)

def xslotPut (k : CollKey) (r : Nat) (v : XSlot) (d : Dev) : Dev :=
  instMod k (fun y => { y with xslots := spPut XSlot.none r v y.xslots }) d

/-- Items kept in a slot. -/
def XSlot.valid (q : XSlot) : Nat := (q.items.filter (fun e => e.2.isSome)).length

/-- Zeros and empty index entries behind the kept items, then the header, the counter and OVERFLOW (R353). -/
def xslotClose (k : CollKey) (r : Nat) (s : State) : State :=
  match instFind s.dev k with
  | none => s
  | some x =>
    let q := xslotGet x r
    let n := q.sent.getD 0
    if q.complete || q.sent.isNone || q.placed + q.dropped ≠ n * (x.len / 64) then s
    else
      let b := x.xBase r
      let v := q.valid
      let s := (List.range (x.cap - v)).foldl (fun s i =>
        let p := v + i
        collWrite x.slot (b + 16 + 2 * p) [0xFF, 0xFF] false
          (collWrite x.slot (b + x.xHead + p * x.len) (List.replicate x.len (0 : Byte)) false s)) s
      let s := collWrite x.slot b (leBytes 4 v ++ leBytes 4 n ++ leBytes 4 q.dropped ++ [0, 0, 0, 0]) false s
      let s := resInc x false { s with dev := xslotPut k r { q with complete := true } s.dev }
      if 0 < q.dropped then
        { s with dev := collSend k r 0x12 0 0 8 (ctrlBytes 4 0 x.rank q.dropped) false true s.dev }
      else s

/-- The place of an item in its slot: the one it has, or a new one (R353, R477). -/
def xslotPlace (cap : Nat) (repro : Bool) (q : XSlot) (item : Nat) : Option Nat × XSlot :=
  match q.items.find? (fun e => e.1 == item) with
  | some e => (e.2, q)
  | none =>
    let p : Option Nat :=
      if repro then (if item < cap then some item else none)
      else if q.valid < cap then some q.valid else none
    (p, { q with items := snoc q.items (item, p) })

/-- A cell of an item arrives from rank `r` (R352, R353). -/
def xchgArrive (k : CollKey) (r item idx : Nat) (bytes : List Byte) (poison : Bool) (s : State) : State :=
  match instFind s.dev k with
  | none => s
  | some x =>
    let q := xslotGet x r
    if q.complete then s
    else
      let repro := reproSlot s.dev x.slot
      let fresh := !(q.items.any (fun e => e.1 == item))
      let (p, q) := xslotPlace x.cap repro q item
      match p with
      | some p =>
        let b := x.xBase r
        let s := collWrite x.slot (b + x.xHead + p * x.len + 64 * idx) bytes poison s
        let s := if fresh then collWrite x.slot (b + 16 + 2 * p) (leBytes 2 item) false s else s
        let d := xslotPut k r { q with placed := q.placed + 1 } s.dev
        let d := instMod k (fun y => { y with poison := y.poison || poison }) d
        let d := if fresh && !repro && p != item then nondet x.slot 0x20 1 d else d
        xslotClose k r { s with dev := d }
      | none =>
        let d := xslotPut k r { q with dropped := q.dropped + 1 } s.dev
        let d := instMod k (fun y => { y with overflow := y.overflow + 1 }) (cntInc (nicBase + 0x988) d)
        let d := if fresh && !repro then nondet x.slot 0x18 1 d else d
        xslotClose k r { s with dev := d }

/-! ### Arrivals (R346) -/

/-- A collective cell processed at a started operation; the answer says whether it belonged there (R339, R346). -/
def collProcess (k : CollKey) (c : Cell) (s : State) : State × Bool :=
  match instFind s.dev k with
  | none => (s, false)
  | some x =>
    match x.rankOfNode c.src.toNat with
    | none => (s, false)
    | some r =>
      let v := x.virt r
      let op := c.op.toNat
      let n := c.len.toNat + 1
      if op = 0x10 then
        match x.kind with
        | .bcast =>
          if x.parent = some v then
            (instSettle k (bcastArrive x (collChunk c) (payBytes c 0 n) c.poison s), true) else (s, false)
        | .reduce =>
          if x.inputs.contains v then
            (instSettle k (reduceArrive k (collChunk c) v (chunkVals (payBytes c 0 64)) c.poison s), true) else (s, false)
        | .exchange => (instSettle k (xchgArrive k r (collChunk c) c.counter.toNat (payBytes c 0 n) c.poison s), true)
      else if op = 0x11 then
        match x.kind with
        | .exchange =>
          let m := payNat c 0 4
          if 32768 < m then (instEnd x 0xD 0xFF r s, true)
          else
            let q := xslotGet x r
            if q.sent.isSome then (s, false)
            else
              let d := xslotPut k r { q with sent := some m } s.dev
              (instSettle k (xslotClose k r { s with dev := d }), true)
        | _ => (s, false)
      else
        match payNat c 0 1 with
        | 1 => (instSettle k { s with dev := instMod k (fun y => { y with finished := snoc y.finished r }) s.dev }, true)
        | 2 => (instEnd x x.okStatus 0xFF (if x.okStatus = 9 then x.overflow else 0) s, true)
        | 3 => (instEnd x (payNat c 1 1) 0xFF (payNat c 2 2) s, true)
        | 4 =>
          let n := payNat c 4 4
          let d := cntAdd (nicBase + 0x990) n (instMod k (fun y => { y with overflow := y.overflow + n }) s.dev)
          (instSettle k { s with dev := d }, true)
        | _ => (s, false)

end Sys2Proof.Machine
end

