-- ==== Sys2Proof/Machine/NicItem.lean ====
section
/-! DEFINITION. Items of work at the source: descriptors in progress, and what the answer or the failure of a cell does to
them (R243, R254, R262, R327, R333 to R336). -/

namespace Sys2Proof.Machine

def itemFind (d : Dev) (id : Nat) : Option Item := d.nic.items.find? (fun i => i.id == id)

def itemMod (id : Nat) (f : Item → Item) (d : Dev) : Dev :=
  { d with nic := { d.nic with items := d.nic.items.map (fun i => if i.id = id then f i else i) } }

/-- The NIC has done a tracker's part (R92, R322). -/
def markReady (t : Option (Nat × Nat)) (d : Dev) : Dev :=
  match t with
  | some (l, id) => lndMod l (trkMod id (fun t => { t with ready := true })) d
  | none => d

/-- Status, fail_status and cause of an item all of whose cells are answered or failed (R334). -/
def Item.outcome (x : Item) : Nat × Nat × Nat :=
  if 0 < x.failed ∧ x.failed = x.cells then (x.firstFail, 0, x.firstCause)
  else if 0 < x.failed then (0x0C, x.firstFail, x.firstCause)
  else if x.newUe then (5, 0, 0xFF)
  else if x.poison then (0xA, 0, 0xFF)
  else (0, 0, 0xFF)

/-- The statuses after which no error notice is sent (R327). -/
def noNotice (st : Nat) : Bool := st == 0 || st == 5 || st == 9 || st == 0xA || st == 0xD

/-- A descriptor completes: the notice to its remote counter, its record, its local counter (R327, R334, R336). -/
def itemFinish (x : Item) (s : State) : State :=
  let (st, fs, cause) := x.outcome
  let d := { s.dev with nic := { s.dev.nic with items := s.dev.nic.items.filter (fun i => i.id != x.id) } }
  let d := markReady x.src.trk d
  let d := match x.rctr with
    | some r => if noNotice st then d else errorNotice x.slot x.cls x.dst r d
    | none => d
  finishDesc ⟨x.slot, x.tag, st, fs, cause, x.kind, x.confirmed, 0, x.stamp, x.lctr⟩ { s with dev := d }

/-- One more failed cell of an item. -/
def itemFail (id status cause : Nat) (d : Dev) : Dev :=
  itemMod id (fun i =>
    if i.failed = 0 then { i with failed := 1, firstFail := status, firstCause := cause }
    else { i with failed := i.failed + 1 }) d

/-- A cell of an item is sent; an Express cell without a path fails at once (R240, R262). -/
def itemSend (id : Nat) (c : Cell) (place : AnsPlace) (d : Dev) : Dev :=
  if c.cls = 0 ∧ (opExpress c.op.toNat && expRoute d c.dst.toNat) = false then
    itemFail id 1 0xFF (cntInc (nicBase + 0x898) d)
  else sendCell c (.item id) place d

/-- What follows once every cell of an item is answered or failed: the NOTIFY of rmode 1, or the end (R319, R334). -/
def itemSettle (id : Nat) (s : State) : State :=
  match itemFind s.dev id with
  | none => s
  | some x =>
    if x.confirmed + x.failed < x.cells then s
    else if x.notifyEnd && x.failed == 0 then
      let cw := ctxWord s.dev x.slot
      let c : Cell := { cellZero with
        dst := BitVec.ofNat 12 x.dst, cls := BitVec.ofNat 2 x.cls, op := 5, ctx := BitVec.ofNat 12 (cw / 16),
        gen := BitVec.ofNat 4 cw, counter := BitVec.ofNat 12 (x.rctr.getD 0), last := true }
      let d := itemSend id c .none (itemMod id (fun i => { i with cells := i.cells + 1, notifyEnd := false }) s.dev)
      match itemFind d id with
      | some y => if y.confirmed + y.failed < y.cells then { s with dev := d } else itemFinish y { s with dev := d }
      | none => { s with dev := d }
    else itemFinish x s

/-! ### The end of an outstanding cell -/

/-- An outstanding cell leaves the resend store; waiting cells move up (R243). -/
def dropOut (o : OutCell) (d : Dev) : Dev :=
  drainWait d.nic.waitq.length { d with nic := { d.nic with resend := d.nic.resend.filter (fun x => x != o) } }

/-- A window access has one answer less to come (R173, R174). -/
def windowPart (l id : Nat) (f : Tracker → Tracker) (d : Dev) : Dev :=
  lndMod l (trkMod id (fun t => let t := f t; { t with parts := t.parts - 1, ready := t.parts ≤ 1 })) d

/-- A cell has been acknowledged or answered. -/
def cellDone (o : OutCell) (s : State) : State :=
  match o.owner with
  | .item id => itemSettle id { s with dev := itemMod id (fun i => { i with confirmed := i.confirmed + 1 }) s.dev }
  | .inst c g n =>
    let k : CollKey := (c, g, n)
    instSettle k { s with dev := instMod k (fun x => { x with unacked := x.unacked - 1, confirmed := x.confirmed + 1 }) s.dev }
  | .window l id => { s with dev := windowPart l id (fun t => t) s.dev }
  | .notice => s

/-- A cell has failed with a status; granules its answer was to fill become poison (R92, R235, R334, R355). -/
def cellFail (o : OutCell) (status cause : Nat) (s : State) : State :=
  let s := match o.place with
    | .bytes pa => poisonRange pa (if o.cell.op = 0xA then 1 else o.cell.len.toNat + 1) none s
    | _ => s
  match o.owner with
  | .item id => itemSettle id { s with dev := itemFail id status cause s.dev }
  | .inst c g n =>
    match instFind s.dev (c, g, n) with
    | some x => instAbort x status x.rank cause s
    | none => s
  | .window l id => { s with dev := windowPart l id (fun t => { t with gotBad := true }) s.dev }
  | .notice => s

/-- The outstanding cell of a flow with a sequence number. -/
def outFind (d : Dev) (dst ctx gen seq : Nat) : Option OutCell :=
  d.nic.resend.find? (fun o => o.cell.dst.toNat == dst && o.cell.ctx.toNat == ctx && o.cell.gen.toNat == gen &&
    o.cell.seq.toNat == seq)

/-- An outstanding cell changed. -/
def outMod (o : OutCell) (f : OutCell → OutCell) (d : Dev) : Dev :=
  { d with nic := { d.nic with resend := d.nic.resend.map (fun x => if x = o then f x else x) } }

/-- A cell that is not sent for want of an Express path fails with link_down; a resend takes its place in the resend
store with it, and counts for nothing where its answer has come (R262, R303). -/
def failUnsent (o : OutCell) (s : State) : State :=
  let d := cntInc (nicBase + 0x898) s.dev
  if o.again then
    match outFind d o.cell.dst.toNat o.cell.ctx.toNat o.cell.gen.toNat o.cell.seq.toNat with
    | some x => cellFail x 1 0xFF { s with dev := dropOut x d }
    | none => { s with dev := d }
  else cellFail o 1 0xFF { s with dev := d }

/-- The cells of a queue of Express cells fail with link_down (R262, R303). -/
def failCells : List OutCell → State → State
  | [], s => s
  | o :: t, s => failCells t (failUnsent o s)

/-- Queued Express cells that no up port can take fail with link_down (R262, R303). -/
def failExpress (s : State) : State :=
  let gone := s.dev.nic.expq.filter (fun o => !(expRoute s.dev o.cell.dst.toNat))
  let keep := s.dev.nic.expq.filter (fun o => expRoute s.dev o.cell.dst.toNat)
  failCells gone { s with dev := { s.dev with nic := { s.dev.nic with expq := keep } } }

end Sys2Proof.Machine
end

