-- ==== Sys2Proof/Machine/Plan.lean ====
section
/-! DEFINITION. What each slot of a bundle is to do: its checks, its accesses, its asynchronous operation and its
register results, all taken from the state before the bundle (R70 to R82, R96 to R102, R119, R136, R152, R160, R186 to
R193). -/

namespace Sys2Proof.Machine

/-- One synchronous effect of a slot. -/
inductive Act where
  | setS (r : Nat) (v : W64) (lat : Nat)
  | setP (r : Nat) (v : W64) (lat : Nat)
  | setV (r : Nat) (v : VWord) (lat : Nat)
  | ld (sd n pa va : Nat) (w32 : Bool)
  | st (pa va : Nat) (bytes : List Byte)
  | vld (vd pa va : Nat) (mask : W64) (zero : Bool)
  | vst (pa va : Nat) (bytes : List Byte) (en : List Bool)
  | gather (vd : Nat) (at_ : List (Option (Nat × Nat))) (zero : Bool) (lat : Nat)
  | scatter (at_ : List (Option (Nat × Nat))) (vals : List Nat)
  | divide (busy : Nat)
  | sfuBusy (busy : Nat)
  | mmac (o : MOps)
  | mzero (a : Nat)
  | mload
  | mstore (soc : Bool) (a sat : Nat) (rec : W64) (va : Nat)
  | xctr (c : Nat) (v : W64)
  | mts (n : Nat) (v : W64)
  | exit (code : W64)

/-- An asynchronous operation that starts at issue (R89). -/
structure StartOp where
  op : AsyncOp
  rngs : List Rng
  indirect : Bool
  dst : List Nat
  notify : Option Nat
  ready : Bool

/-- What a slot is to do, or its fault: cause and address. -/
structure Plan where
  fault : Option (Nat × Nat)
  acc : List Rng
  start : Option StartOp
  /-- Ranges translated, as address, length and write. -/
  xl : List (Nat × Nat × Bool)
  cross : Nat
  acts : List Act

def Plan.none : Plan := ⟨Option.none, [], Option.none, [], 0, []⟩
def Plan.fail (cause addr : Nat) : Plan := { Plan.none with fault := some (cause, addr) }
def Plan.does (a : List Act) : Plan := { Plan.none with acts := a }

/-- The plan with translations it made put in front. -/
def Plan.withXl (x : List (Nat × Nat × Bool)) (p : Plan) : Plan := { p with xl := x ++ p.xl }

/-- A plan that starts an asynchronous operation. -/
def Plan.async (o : StartOp) (cross : Nat) (acts : List Act) : Plan :=
  { Plan.none with acc := o.rngs, start := some o, cross := cross, acts := acts }

/-- Plan a range access: translate and check, then go on with its physical address. -/
def withRange (s : State) (l va n : Nat) (wr : Bool) (win : Nat) (k : Nat → Nat → Plan) : Plan :=
  if n = 0 then k 0 0
  else Plan.withXl [(va, n, wr)]
    (match reachRange s l va n wr win with
    | .error (c, a) => .fail c a
    | .ok (pa, c) => k pa c)

/-- An operation outside windows is complete at its own retirement; one in a window waits for its cells. -/
def readyAt (pa : Nat) : Bool := !(tierWindow (tierOf pa))

/-! ### Scalar slots -/

/-- A load (R70, R89). -/
def planLd (s : State) (l sd n va : Nat) (w : Bool) : Plan :=
  if va % n ≠ 0 then .fail 0x07 va
  else withRange s l va n false 1 (fun pa c =>
    let r := rngOf pa n false
    if inOwnStore l pa n then { Plan.does [.ld sd n pa va w] with acc := r }
    else .async ⟨.ld sd n pa va w, r, false, [sd], none, readyAt pa⟩ c [])

/-- A store. -/
def planSt (s : State) (l n va : Nat) (data : W64) : Plan :=
  if va % n ≠ 0 then .fail 0x07 va
  else withRange s l va n true 1 (fun pa c =>
    let r := rngOf pa n true
    let b := leBytes n data.toNat
    if inOwnStore l pa n then { Plan.does [.st pa va b] with acc := r }
    else .async ⟨.st pa va b, r, false, [], none, readyAt pa⟩ c [])

/-- The value of a special register (R99). -/
def srValue (d : Dev) (l n : Nat) : W64 :=
  let x := lndGet d l
  let o (v : Nat) : W64 := BitVec.ofNat 64 v
  match n with
  | 0x00 => o (logicalOf d l)
  | 0x01 => o l
  | 0x02 => o (galleryOf l)
  | 0x03 => o x.kern.nland
  | 0x04 => o x.kern.rank
  | 0x05 => o x.kern.ctx
  | 0x06 => o x.kern.seq
  | 0x08 => d.tim.count
  | 0x0A => cntGet d (lndBase l + 0x100)
  | 0x0B => cntGet d (lndBase l + 0x108)
  | 0x10 => x.regs.waitTmo
  | 0x11 => o (32 - x.trk.length)
  | 0x12 => x.kern.param
  | 0x18 => x.regs.rngKey
  | _ => 0

/-- The value a wait returns (R96). -/
def waitValue (c : Ctr) (tmo : Bool) : W64 :=
  BitVec.ofNat 64 (c.val.toNat + b2n c.err * 2 ^ 63 + b2n tmo * 2 ^ 62)

/-- Where control goes after a bundle, with the cycles lost (R87). -/
structure Flow1 where
  next : Nat
  lost : Nat
  miss : Bool
  /-- The branch target lies outside the instruction store. -/
  bad : Bool

/-- The flow of control of the operation in S0; `on` is its predicate. -/
def flowOf (x : Landing) (b : Bundle) (on : Bool) : Flow1 :=
  let o := actS0 b
  let op := o.op.toNat
  let pc := x.pipe.pc
  let hint := b.h.bhint == 1
  let seq : Flow1 := ⟨pc + 1, 0, false, false⟩
  if op = 0x30 ∨ op = 0x32 then
    let t : Int := (pc : Int) + (immS (extOf b 1) o.f.imm20).toInt
    if on then
      (if t < 0 ∨ 4096 ≤ t then ⟨pc, 0, false, true⟩
      else if hint then ⟨t.toNat, 1, false, false⟩ else ⟨t.toNat, 4, true, false⟩)
    else if hint then ⟨pc + 1, 4, true, false⟩ else seq
  else if op = 0x31 then (if on then ⟨(regS x.regs o.f.sa.toNat).toNat % 4096, 4, false, false⟩ else seq)
  else if op = 0x33 then (if on then ⟨(regS x.regs 63).toNat % 4096, 4, false, false⟩ else seq)
  else seq

/-- What a scalar operation that acts is to do. -/
def planS (s : State) (l : Nat) (b : Bundle) (second : Bool) : Plan :=
  let x := lndGet s.dev l
  let r := x.regs
  let o := if second then actS1 b else actS0 b
  let op := o.op.toNat
  let imm := immS (extOf b (if second then 2 else 1)) o.f.imm20
  let sd := o.f.sd.toNat
  let a := regS r o.f.sa.toNat
  let v2 := if o.f.useimm then imm else regS r o.f.sb.toNat
  let w := o.f.w32
  let pa := regP r (o.f.sa.toNat % 16)
  let pb := regP r (o.f.sb.toNat % 16)
  let pOut (v : W64) : Plan := .does [.setP (sd % 16) (if w then w32Out true (v.toNat : Nat) else v) 1]
  let va := w32Addr w a imm
  if op = 0 then .none
  else if 0x0D ≤ op ∧ op ≤ 0x0F then .does [.setP (sd % 16) (predOf (cmpResult op w a v2)) 1]
  else if op ≤ 0x16 then
    .does ([.setS sd (aluResult op w a v2) (aluLatency op w a v2)] ++
      (if isDiv o then [.divide (aluLatency op w a v2)] else []))
  else if op = 0x18 then .does [.setS sd (w32Out w imm.toInt) 1]
  else if op = 0x1A then pOut (pa &&& pb)
  else if op = 0x1B then pOut (pa ||| pb)
  else if op = 0x1C then pOut (pa &&& ~~~pb)
  else if 0x20 ≤ op ∧ op ≤ 0x23 then planLd s l sd (2 ^ (0x23 - op)) va w
  else if 0x28 ≤ op ∧ op ≤ 0x2B then planSt s l (2 ^ (0x2B - op)) va (w32Val w (regS r o.f.sb.toNat))
  else if op = 0x2E then
    let n := imm.toNat % 256
    .does ([.setS sd (w32Val w (srValue s.dev l n)) 2] ++
      (if n = 8 then [.setS (sd + 1) (BitVec.ofNat 64 (timeQuality s.dev.tim)) 2] else []))
  else if op = 0x2F then .does [.mts (imm.toNat % 256) (w32Val w a)]
  else if op = 0x30 then (if (flowOf x b true).bad then .fail 0x01 0 else .none)
  else if op = 0x32 then
    (if (flowOf x b true).bad then .fail 0x01 0 else .does [.setS 63 (BitVec.ofNat 64 (x.pipe.pc + 1)) 1])
  else if op = 0x38 then
    let c := a.toNat % 4096
    if !(ctrOwned s.dev x.kern.slot c) then .fail 0x08 0
    else
      let k := ctrGet s.dev c
      .does [.setS sd (w32Val w (waitValue k (x.pipe.timedOut && !(k.err || decide (w32In w v2 ≤ k.val.toNat))))) 1]
  else if op = 0x3E then .fail 0x0A 0
  else if op = 0x3F then .does [.exit a]
  else .none

/-! ### Vector slots -/

/-- Bytes of a vector register. -/
def vBytes (v : VWord) : List Byte := leBytes 256 v.toNat

/-- Lanes of granule `i` of a vector access that a mask enables. -/
def granLanes (mask : W64) (i : Nat) : Bool := fieldN mask (16 * i + 15) (16 * i) != 0

/-- The granules of a vector access from the first to the last that hold an enabled lane: the bytes before them and
their bytes; a disabled element is not accessed (R66). -/
def maskSpan (mask : W64) : Nat × Nat :=
  let l := (List.range 4).filter (granLanes mask)
  (64 * l.headD 0, 64 * (l.getLastD 0 + 1) - 64 * l.headD 0)

/-- The enabled bytes of a lane mask, four a lane. -/
def laneBytes (mask : W64) : List Bool := (List.range 256).map (fun i => mask.getLsbD (i / 4))

/-- The addresses of a gather or scatter, by lane, and the first fault in lane order (R152). -/
def laneAddrs (s : State) (l : Nat) (base : W64) (offs : VWord) (mask : W64) (wr : Bool) :
    Except (Nat × Nat) (List (Option (Nat × Nat))) :=
  (List.range 64).foldl (fun acc i =>
    match acc with
    | .error e => .error e
    | .ok t =>
      if mask.getLsbD i then
        let va := (base + BitVec.ofNat 64 (vElem 32 offs i)).toNat
        if va % 4 ≠ 0 then .error (0x07, va)
        else match reachRange s l va 4 wr 2 with
          | .error e => .error e
          | .ok (pa, _) => if inOwnStore l pa 4 then .ok (snoc t (some (pa, va))) else .error (0x09, va)
      else .ok (snoc t Option.none)) (.ok [])

/-- Lanes that address one bank, less 4, at most over the 16 banks (R73). -/
def bankDelay (at_ : List (Option (Nat × Nat))) : Nat :=
  ((List.range 16).map (fun b =>
    (at_.filter (fun x => match x with
      | some (pa, _) => pa / 64 % 16 == b
      | none => false)).length)).foldl max 0 - 4

/-- The latency of a vector operation with a register result (R73). -/
def vLatency (op ty : Nat) : Nat :=
  let isF := (tyFloat ty).isSome
  if op ≤ 0x03 then (if isF then 4 else 2)
  else if op = 0x04 then (if isF then 4 else 3)
  else if op = 0x18 ∨ op = 0x20 ∨ op = 0x22 then 3
  else if 0x28 ≤ op ∧ op ≤ 0x2A then (if isF then 8 else 6)
  else if op = 0x38 then 12
  else if op = 0x3C then 4
  else 2

/-- Cycles a vsfu occupies the special-function unit (R74). -/
def sfuCycles (ty : Nat) : Nat := tyCount ty / 32

/-- What a vector operation is to do; `late` is the delay of a vsfu in V1 behind one in V0. -/
def planV (s : State) (l : Nat) (b : Bundle) (o : VOp) (tgt : Nat) (sel : BitVec 5) (late : Nat) : Plan :=
  let x := lndGet s.dev l
  let r := x.regs
  let op := o.op.toNat
  let ty := o.f.ty.toNat
  let w := tyW ty
  let ctl := o.f.ctl.toNat
  let mask := pselMask r sel
  let rnd := rndOf o.f.rnd
  let z := o.f.zero
  let va := regV r o.f.va.toNat
  let vb := regV r o.f.vb.toNat
  let vc := regV r o.f.vc.toNat
  let vd := o.f.vd.toNat
  let old := regV r vd
  let sa := regS r o.f.sa.toNat
  let imm := immS (extOf b tgt) o.f.imm20
  let ad := (sa + imm).toNat
  let out (v : VWord) : Plan := .does [.setV vd v (vLatency op ty)]
  let outS (v : W64) : Plan := .does [.setS o.f.sa.toNat v (vLatency op ty)]
  if op = 0 then .none
  else if op ≤ 0x0E then
    out (vMap ty mask z old (fun i => vElemOp op ty rnd o.f.sat (vElem w va i) (vElem w vb i) (vElem w vc i)))
  else if op = 0x10 then
    .does [.setP o.f.pd.toNat (vCmpResult ty ctl mask z (regP r o.f.pd.toNat) va vb) 2]
  else if op = 0x11 then
    let pd := regP r o.f.pd.toNat
    out (vMap ty mask z old (fun i => if pd.getLsbD (laneOf ty i) then vElem w va i else vElem w vb i))
  else if op = 0x18 then out (vCvtResult (ctl % 16) ty (ctl / 16 % 4) rnd o.f.sat mask z old va)
  else if op = 0x20 then out (vMap ty mask z old (fun i => vElem w va (vElem w vb i % tyCount ty)))
  else if op = 0x21 then out (vMap ty mask z old (fun _ => sa.toNat % 2 ^ w))
  else if op = 0x22 then
    (if mask.getLsbD (laneOf ty imm.toNat) then outS (extElem ty (vElem w va imm.toNat))
    else if z then outS 0 else .none)
  else if op = 0x23 then
    let v := if mask.getLsbD (laneOf ty imm.toNat) then sa.toNat else if z then 0 else vElem w old imm.toNat
    out (vOfElems w ((List.range (tyCount ty)).map (fun i => if i = imm.toNat then v else vElem w old i)))
  else if 0x28 ≤ op ∧ op ≤ 0x2A then outS (vReduce op ty rnd mask va)
  else if op = 0x30 then
    (if mask = 0 then .does [.vld vd 0 0 0 z]
    else if ad % 64 ≠ 0 then .fail 0x07 ad
    else
      let (k, n) := maskSpan mask
      withRange s l (ad + k) n false 1 (fun pa c =>
        let rg := rngOf pa n false
        if inOwnStore l pa n then { Plan.does [.vld vd pa (ad + k) mask z] with acc := rg }
        else .async ⟨.vld vd pa (ad + k) ty mask z, rg, false, [64 + vd], Option.none, readyAt pa⟩ c []))
  else if op = 0x31 then
    (if mask = 0 then .none
    else if ad % 64 ≠ 0 then .fail 0x07 ad
    else
      let (k, n) := maskSpan mask
      withRange s l (ad + k) n true 1 (fun pa c =>
        let rg := rngOf pa n true
        let bs := ((vBytes va).drop k).take n
        let en := ((laneBytes mask).drop k).take n
        if inOwnStore l pa n then { Plan.does [.vst pa (ad + k) bs en] with acc := rg }
        else .async ⟨.vst pa (ad + k) bs en, rg, false, [], Option.none, readyAt pa⟩ c []))
  else if op = 0x32 ∨ op = 0x33 then
    let wr := decide (op = 0x33)
    let xl := ((List.range 64).filter (fun i => mask.getLsbD i)).map (fun i =>
      ((sa + BitVec.ofNat 64 (vElem 32 vb i)).toNat, 4, wr))
    match laneAddrs s l sa vb mask wr with
    | .error (c, a) => Plan.withXl xl (.fail c a)
    | .ok t =>
      let acc := t.filterMap (fun x => x.map (fun p => (⟨p.1 / 64, p.1 / 64, wr⟩ : Rng)))
      let act : Act := if wr then .scatter t ((List.range 64).map (vElem 32 va)) else .gather vd t z (8 + bankDelay t)
      Plan.withXl xl { Plan.does [act] with acc := acc }
  else if op = 0x38 then
    match tyFloat ty with
    | some f =>
      .does [.setV vd (vMap ty mask z old (fun i => sfu f (ctl % 8) ty (vElem w va i))) (12 + late), .sfuBusy (sfuCycles ty)]
    | Option.none => .none
  else if op = 0x3C then out (vRngResult ty (ctl % 2 ^ 16) r.rngKey sa mask z old)
  else .none

/-! ### Matrix slot -/

/-- The resource that an mload fills. -/
def mloadRes (o : MOps) : Nat :=
  if o.opt.toNat % 2 = 1 then 160 + o.ib.toNat else if o.bsel then 156 + o.ib.toNat else 152 + o.ia.toNat

/-- One landing store or one gallery store holds the whole range (R119). -/
def oneStore (pa n : Nat) : Bool := (storeNo (tierOf pa)).isSome && storeNo (tierOf pa) == storeNo (tierOf (pa + n - 1))

/-- What a matrix operation that acts is to do. -/
def planM (s : State) (l : Nat) (b : Bundle) : Plan :=
  let x := lndGet s.dev l
  let r := x.regs
  let o := (actM b).f
  let va := (regS r o.sa.toNat + immS (extOf b 5) o.imm20).toNat
  let fa := o.fmtA.toNat
  let st := o.stride.toNat
  let opt := o.opt.toNat
  match (actM b).op.toNat with
  | 1 =>
    let meta_ := opt % 2 == 1
    let dual := opt / 2 % 2 == 1
    let n := if meta_ then 256 else imageSpan fa st dual
    if va % 64 ≠ 0 then .fail 0x07 va
    else
      let p := withRange s l va n false 2 (fun pa c =>
        if !(oneStore pa n) then .fail 0x09 va
        else
          let op : AsyncOp := if meta_ then .mloadMeta o.ib.toNat pa va
            else .mload o.bsel (if o.bsel then o.ib.toNat else o.ia.toNat) fa st dual pa va
          .async ⟨op, rngOf pa n false, false, [mloadRes o], Option.none, true⟩ c [.mload])
      p
  | 2 => .does [.mmac o]
  | 3 => .does [.mzero o.acc.toNat]
  | 4 =>
    let tile := regAcc r o.acc.toNat
    let sat := opt % 2 == 1
    let trans := opt / 2 % 2 == 1
    let soc := opt / 4 % 2 == 1
    let (img, nsat) := tileImage tile fa st sat trans (opt / 8 == 1)
    let pieces := img.map (fun p => (⟨p.1, p.2⟩ : Piece))
    let crc (a : Nat) : W64 := crc64 (leBytes 8 a ++ (img.map (·.2)).flatten)
    if va % 64 ≠ 0 then .fail 0x07 va
    else if soc then withRange s l va 64 false 2 (fun pa c =>
      if !(inOwnStore l pa 64) then .fail 0x09 va
      else
        let raddr := leNat (peekBytes s (pa + 24) 8)
        .async ⟨.soc pa va pieces, rngOf pa 64 false, false, [], Option.none, false⟩ c
          [.mstore true o.acc.toNat nsat (crc raddr) raddr])
    else
      let n := imageSpan fa st false
      withRange s l va n true 0 (fun pa c =>
        .async ⟨.mstore pa va pieces, rngOf pa n true, false, [], Option.none, true⟩ c
          [.mstore false o.acc.toNat nsat (crc va) va])
  | _ => .none

/-! ### Move slot -/

/-- The counter notified on completion (R79). -/
def xNotify (o : XOps) : Option Nat := if o.notify then some o.ctr.toNat else Option.none

/-- The local ranges a descriptor names: address, length, and whether it is written (R80, R317, R343). -/
def descRanges (x : BitVec 512) : List (Nat × Nat × Bool) :=
  let op := descOp x
  let one (a n : Nat) (w : Bool) : List (Nat × Nat × Bool) := if n = 0 ∨ rangeMax < n then [] else [(a, n, w)]
  let dst := dField x 16 8
  let bf := fieldN x 334 333 == 1
  match op with
  | 0x10 => one (descLaddr x) (descLen x) false ++ one dst (descLen x) true
  | 0x11 => (if x.getLsbD 335 then [] else one (descLaddr x) (if bf then descLen x / 2 else descLen x) false) ++
      one dst (descLen x) true
  | 0x12 => one (descLaddr x) 16 false
  | 0x13 => one (descLaddr x) (descLen x) false
  | _ => match dataRange x with
    | some (a, n, w, _) => one a n w
    | Option.none => []

/-- A descriptor in the own store: its checks, then the plan with its address, its tracked ranges and whether it can be
read. -/
def planDesc (s : State) (l va : Nat) (k : Nat → List Rng → Nat → Plan) : Plan :=
  if va % 64 ≠ 0 then .fail 0x07 va
  else withRange s l va 64 false 2 (fun pa c =>
    if !(inOwnStore l pa 64) then .fail 0x09 va
    else
      let d0 := rngOf pa 64 false
      if (granAt s pa).1 ≠ .ok then k pa d0 c
      else
        (descRanges (payloadOf (peekBytes s pa 64))).foldr (fun q (k : Nat → List Rng → Nat → Plan) pa rg c =>
          Plan.withXl [q] (match (xlateRange s (lndGet s.dev l).kern.slot q.1 q.2.1 q.2.2).1 with
            | .ok (p, c2) => k pa (rg ++ rngOf p q.2.1 q.2.2) (c + c2)
            | .error _ => k pa rg c)) k pa d0 c)

/-- What a move operation that acts is to do. -/
def planX (s : State) (l : Nat) (b : Bundle) : Plan :=
  let x := lndGet s.dev l
  let r := x.regs
  let o := (actX b).f
  let immv := immX (extOf b 6) o.imm20
  let dst := (regS r o.sdst.toNat).toNat
  let src := (regS r o.ssrc.toNat).toNat
  let aux := regS r o.saux.toNat
  let lenReg := (regS r o.slen.toNat).toNat
  let len := if o.lenimm then 64 * immv else lenReg
  let cap := 64 * immv
  let nt := xNotify o
  let op := (actX b).op.toNat
  let ctrBad := (op = 8 || (op != 0 && o.notify)) && !(ctrOwned s.dev x.kern.slot o.ctr.toNat)
  if ctrBad then .fail 0x08 0
  else match op with
  | 1 =>
    if rangeMax < len then .fail 0x01 0
    else if src % 64 ≠ 0 then .fail 0x07 src
    else if dst % 64 ≠ 0 then .fail 0x07 dst
    else if len % 64 ≠ 0 then .fail 0x07 0
    else withRange s l src len false 0 (fun ps c1 => withRange s l dst len true 0 (fun pd c2 =>
      if len ≠ 0 ∧ ps < pd + len ∧ pd < ps + len then .fail 0x01 0
      else .async ⟨.xcopy ps pd dst len, rngOf ps len false ++ rngOf pd len true, false, [], nt, true⟩ (c1 + c2) []))
  | 2 =>
    if rangeMax < len then .fail 0x01 0
    else if dst % 64 ≠ 0 then .fail 0x07 dst
    else if len % 64 ≠ 0 then .fail 0x07 0
    else withRange s l dst len true 0 (fun pd c =>
      .async ⟨.xfill pd dst len aux, rngOf pd len true, false, [], nt, true⟩ c [])
  | 3 =>
    if rangeMax < lenReg ∨ rangeMax < cap then .fail 0x01 0
    else if dst % 64 ≠ 0 then .fail 0x07 dst
    else if aux.toNat % 64 ≠ 0 then .fail 0x07 aux.toNat
    else withRange s l src lenReg false 0 (fun ps c1 => withRange s l dst cap true 0 (fun pd c2 =>
      withRange s l aux.toNat (if lenReg = 0 ∧ cap = 0 then 0 else 2048) false 0 (fun pt c3 =>
      .async ⟨.xunpack ps lenReg pd dst cap pt, rngOf ps lenReg false ++ rngOf pd cap true, false, [], nt,
        lenReg == 0 && cap == 0⟩ (c1 + c2 + c3) [])))
  | 4 =>
    let n := (lenReg - 64) / 8
    if lenReg < 64 ∨ (lenReg - 64) % 8 ≠ 0 ∨ n < 1 ∨ 65536 < n ∨ cap = 0 ∨ rangeMax < cap then .fail 0x01 0
    else if dst % 64 ≠ 0 then .fail 0x07 dst
    else if aux.toNat % 64 ≠ 0 then .fail 0x07 aux.toNat
    else withRange s l aux.toNat lenReg false 0 (fun pt c1 => withRange s l dst cap true 2 (fun pd c2 =>
      if tierOf pd ≠ .gallery (galleryOf l) ∨ tierOf (pd + cap - 1) ≠ .gallery (galleryOf l) then .fail 0x09 dst
      else .async ⟨.xstream pd dst cap pt lenReg, rngOf pt lenReg false ++ rngOf pd cap true, true, [], nt, false⟩
        (c1 + c2) []))
  | 5 => planDesc s l aux.toNat (fun pa rg c => .async ⟨.xnic pa, rg, false, [], nt, false⟩ c [])
  | 6 => planDesc s l aux.toNat (fun pa rg c => .async ⟨.xtrig pa, rg, false, [], nt, true⟩ c [])
  | 7 =>
    let ty := fieldN aux 19 16
    let k := fieldN aux 8 0
    let es := if ty = 1 ∨ ty = 2 then 2 else 4
    if 262144 < lenReg ∨ k < 1 ∨ 256 < k ∨ 3 < ty ∨ fieldN aux 31 20 ≠ 0 ∨ fieldN aux 14 9 ≠ 0 then .fail 0x01 0
    else if src % es ≠ 0 then .fail 0x07 src
    else if dst % 8 ≠ 0 then .fail 0x07 dst
    else withRange s l src (lenReg * es) false 0 (fun ps c1 => withRange s l dst (8 * k) true 0 (fun pd c2 =>
      .async ⟨.xtopk ps pd dst lenReg ty (aux.getLsbD 15) k (fieldN aux 63 32),
        rngOf ps (lenReg * es) false ++ rngOf pd (8 * k) true, false, [], nt, false⟩ (c1 + c2) []))
  | 8 => .does [.xctr o.ctr.toNat aux]
  | _ => .none

end Sys2Proof.Machine
end

