-- ==== Sys2Proof/Machine/Landing.lean ====
section
/-! DEFINITION. One landing cycle: which cause holds a bundle, and its issue as a whole (R82 to R88, R92, R103 to R106,
R132 to R134). -/

namespace Sys2Proof.Machine

/-! ### Effects -/

/-- A landing changed inside the state. -/
def onLnd (l : Nat) (f : Landing → Landing) (s : State) : State := { s with dev := lndMod l f s.dev }

def onDev (f : Dev → Dev) (s : State) : State := { s with dev := f s.dev }

def onRegs (l : Nat) (f : LRegs → LRegs) (s : State) : State := onLnd l (fun x => { x with regs := f x.regs }) s

/-- A resource is ready from a cycle on; a latency of one cycle needs no entry. -/
def delayRes (res t lat : Nat) (p : LPipe) : LPipe :=
  { p with rdy := if lat ≤ 1 then p.rdy else spPut 0 res (t + lat) p.rdy }

def onPipe (l : Nat) (f : LPipe → LPipe) (s : State) : State := onLnd l (fun x => { x with pipe := f x.pipe }) s

/-- Why a bundle's effects stop: the cause and address of the fault, and how many of its reads found poison and cold
granules (R202, R207). -/
structure BadRead where
  cause : Nat
  addr : Nat
  poison : Nat
  cold : Nat

/-- The lowest bad granule among reads given as physical and virtual address, with the counts of bad reads. -/
def firstBad (s : State) (at_ : List (Nat × Nat)) : Option BadRead :=
  (at_.foldl (fun (acc : Option BadRead) p =>
    let g := (granAt s p.1).1
    let a := 64 * (p.2 / 64)
    if g = .ok then acc
    else
      let e := acc.getD ⟨gstCause g, a, 0, 0⟩
      let e := if a < e.addr then { e with cause := gstCause g, addr := a } else e
      some { e with poison := e.poison + b2n (g != .cold), cold := e.cold + b2n (g == .cold) }) none)

/-- The granules that lanes of a mask reach, as physical and virtual address, from the addresses of the first of them. -/
def laneGrans (pa va : Nat) (mask : W64) : List (Nat × Nat) :=
  let k := (maskSpan mask).1
  ((List.range 4).filter (granLanes mask)).map (fun i => (pa + 64 * i - k, va + 64 * i - k))

/-- A write of the landing's kernel: memory, writer mask, and the sum of a compared kernel. -/
def landWrite (l pa va : Nat) (bytes : List (Option Byte)) (s : State) : State :=
  let slot := (lndGet s.dev l).kern.slot
  onDev (lsWrote l slot va bytes) (writeBytes pa bytes false (some slot) s)

/-- A vector register loaded under a lane mask, with the bytes from the first granule that holds an enabled lane on. -/
def vldPut (l vd : Nat) (mask : W64) (zero : Bool) (bytes : List Byte) (s : State) : State :=
  let new : VWord := BitVec.ofNat 2048 (leNat bytes * 2 ^ (8 * (maskSpan mask).1))
  onRegs l (fun r => putV vd (vMap 6 mask zero (regV r vd) (vElem 32 new)) r) s

/-- The 4 bytes at an address, as a number. -/
def peek32 (s : State) (pa : Nat) : Nat := leNat (peekBytes s pa 4)

/-- One effect at cycle `t`; poison or a cold granule stops it with its cause and address. -/
def applyAct (l t : Nat) (a : Act) (s : State) : Except BadRead State :=
  let x := lndGet s.dev l
  match a with
  | .setS r v lat => .ok (onPipe l (delayRes r t lat) (onRegs l (putS r v) s))
  | .setP r v lat => .ok (onPipe l (if r = 0 then id else delayRes (128 + r) t lat) (onRegs l (putP r v) s))
  | .setV r v lat => .ok (onPipe l (delayRes (64 + r) t lat) (onRegs l (putV r v) s))
  | .ld sd n pa va w =>
    match firstBad s [(pa, va)] with
    | some e => .error e
    | none => .ok (onPipe l (delayRes sd t 4)
        (onRegs l (putS sd (w32Val w (BitVec.ofNat 64 (leNat (peekBytes s pa n))))) (onDev (touch pa) s)))
  | .st pa va b => .ok (landWrite l pa va (b.map some) s)
  | .vld vd pa va mask zero =>
    match firstBad s (laneGrans pa va mask) with
    | some e => .error e
    | none => .ok (onPipe l (delayRes (64 + vd) t 6)
        (vldPut l vd mask zero (if mask = 0 then [] else peekBytes s pa (maskSpan mask).2) (if mask = 0 then s else onDev (touch pa) s)))
  | .vst pa va b en => .ok (landWrite l pa va (b.zipWith (fun b e => if e then some b else none) en) s)
  | .gather vd at_ zero lat =>
    match firstBad s (at_.filterMap id) with
    | some e => .error e
    | none =>
      .ok (onPipe l (delayRes (64 + vd) t lat) (onRegs l (fun r =>
        putV vd (vOfElems 32 ((List.range 64).map (fun i =>
          match (at_[i]?).join with
          | some (pa, _) => peek32 s pa
          | none => if zero then 0 else vElem 32 (regV r vd) i))) r) s))
  | .scatter at_ vals =>
    .ok ((at_.zip vals).foldl (fun s p =>
      match p.1 with
      | some (pa, va) => landWrite l pa va ((leBytes 4 p.2).map some) s
      | none => s) s)
  | .divide n => .ok (onPipe l (fun p => { p with divFree := t + n }) s)
  | .sfuBusy n => .ok (onPipe l (fun p => { p with sfuFree := max p.sfuFree t + n }) s)
  | .mmac o =>
    let fa := o.fmtA.toNat
    let fb := o.fmtB.toNat
    let plans := blockPlans (isMxfp4 fa fb) o.bsel o.ia.toNat o.ib.toNat
    let r := x.regs
    let (tile, nan, ovf) := mmacTile fa fb plans (fun b i => spGet 0 r.fa (32 * b + i))
      (fun b j => spGet 0 r.fb (32 * b + j)) (fun b j => spGet 0 r.md (32 * b + j)) (regAcc r o.acc.toNat)
    let d := cntAdd (fltBase l + 0x38) ovf (cntAdd (fltBase l + 0x30) nan
      (cntIf o.bsel (fltBase l + 0x08) (cntInc (fltBase l) s.dev)))
    let occ := if fa = 7 ∨ fa = 8 then 2 else 1
    .ok (onPipe l (fun p => { p with flightFree := t + occ, accRdy := spPut 0 o.acc.toNat (t + 8) p.accRdy })
      (onRegs l (putAcc o.acc.toNat tile) { s with dev := d }))
  | .mzero a => .ok (onPipe l (fun p => { p with flightFree := t + 1 }) (onRegs l (putAcc a []) s))
  | .mload => .ok (onPipe l (fun p => { p with flightFree := t + 1 }) (onDev (cntInc (fltBase l + 0x10)) s))
  | .mstore soc a sat rec va =>
    let spec := tileSpecials (regAcc x.regs a)
    let d := cntAdd (fltBase l + 0x48) spec (cntAdd (fltBase l + 0x40) sat
      (cntIf soc (fltBase l + 0x20) (cntInc (fltBase l + 0x18) s.dev)))
    let n := spGet 0 d.ls.tileSeq l
    let d := match runOf d x.kern.slot l with
      | some (_, k) =>
        if k.compared then
          lsPost ⟨x.kern.seq, x.kern.rank, x.pipe.pc, n, rec, BitVec.ofNat 64 va, d.tim.now⟩
            { d with ls := { d.ls with tileSeq := spPut 0 l (n + 1) d.ls.tileSeq } }
        else d
      | none => d
    .ok (onPipe l (fun p => { p with flightFree := t + 4, accBusy := spPut 0 a (t + 4) p.accBusy }) { s with dev := d })
  | .xctr c v => .ok (ctrSet c ⟨BitVec.ofNat 48 v.toNat, false⟩ s)
  | .mts n v => .ok (onPipe l (delayRes (if n = 0x10 then 164 else 165) t 2)
      (onRegs l (fun r => if n = 0x10 then { r with waitTmo := v } else { r with rngKey := v }) s))
  | .exit v => .ok (onLnd l (fun x => { x with phase := .draining, kern := { x.kern with exitCode := BitVec.ofNat 32 v.toNat } }) s)

/-- The effects of a slot in order. -/
def applyActs (l t : Nat) : List Act → State → Except BadRead State
  | [], s => .ok s
  | a :: as, s =>
    match applyAct l t a s with
    | .error e => .error e
    | .ok s' => applyActs l t as s'

/-- The cells of a window access, with their number (R173): gets for a load, puts for a store, in class 2. -/
def windowCells (l id : Nat) (op : AsyncOp) (d : Dev) : Nat × Dev :=
  let cw := (lndGet d l).kern.ctx
  let own : CellOwner := .window l id
  let loads (pa : Nat) (runs : List (Nat × Nat)) : Nat × Dev :=
    match winNode d pa with
    | none => (0, d)
    | some (node, off) =>
      let sp := runs.flatMap (fun r => readSpans (k3Node d node) (off + r.1) r.2)
      let z := (sp.getLast?.map (·.1)).getD 0
      (sp.length, sp.foldl (fun d p =>
        sendCell (getCell 2 node cw p.1 p.2 0 (p.1 == z)) own (.window l id (p.1 - off)) d) d)
  let stores (pa : Nat) (b : List Byte) (en : List Bool) : Nat × Dev :=
    match winNode d pa with
    | none => (0, d)
    | some (node, off) =>
      let k3 := k3Node d node
      let sp := (enRuns 0 en).flatMap (fun r => writeSpans k3 (off + r.1) r.2)
      let z := (sp.getLast?.map (·.1)).getD 0
      (sp.length, sp.foldl (fun d p =>
        sendCell (writeCell 2 node cw p.1 ((b.drop (p.1 - off)).take p.2) none (p.1 == z) false k3) own .none d) d)
  match op with
  | .ld _ n pa _ _ => loads pa [(0, n)]
  | .vld _ pa _ _ m _ => loads pa (enRuns 0 (((List.range 256).map (fun i => granLanes m (i / 64))).drop (maskSpan m).1))
  | .st pa _ b => stores pa b (b.map (fun _ => true))
  | .vst pa _ b en => stores pa b en
  | _ => (0, d)

/-- The job queues an asynchronous operation joins at issue (R163, R187, R192). -/
def queueJob (l id : Nat) (op : AsyncOp) (d : Dev) : Dev :=
  let j : Job := ⟨l, id, (lndGet d l).kern.ctx⟩
  match op with
  | .xstream _ _ _ _ _ =>
    { d with memc := { d.memc with strQ := spMod [] (2 * galleryOf l + l % 2) (fun q => snoc q j) d.memc.strQ } }
  | .xunpack _ _ _ _ _ _ =>
    { d with memc := { d.memc with upkQ := spMod [] (hallOf l) (fun q => snoc q j) d.memc.upkQ } }
  | .xtopk _ _ _ _ _ _ _ _ =>
    { d with memc := { d.memc with topQ := spMod [] (galleryOf l) (fun q => snoc q j) d.memc.topQ } }
  | _ => d

/-- A descriptor's place in the NIC's queue, for xnic and send-on-complete (R142, R314, R322). -/
def queueDesc (l id : Nat) (o : StartOp) (d : Dev) : Dev :=
  let x := lndGet d l
  let src : DescSrc := ⟨some (l, id), kernelOf x, o.notify⟩
  match o.op with
  | .xnic pa => postDesc ⟨x.kern.slot, src, some pa, 0, none⟩ d
  | .soc pa _ img => postDesc ⟨x.kern.slot, src, some pa, 0, some img⟩ d
  | _ => d

/-- An asynchronous operation starts: its tracker, its job or descriptor, its window cells (R89). -/
def startAsync (l : Nat) (o : StartOp) (s : State) : State :=
  let x := lndGet s.dev l
  let id := x.trkNext
  let t : Tracker := ⟨id, o.rngs, o.indirect, x.pipe.cyc, o.dst, o.op, o.notify, o.ready, 0, [], false, none, false, false⟩
  let s := onLnd l (fun x => { x with trk := snoc x.trk t, trkNext := id + 1 }) s
  let (n, d) := windowCells l id o.op s.dev
  let d := lndMod l (trkMod id (fun t => { t with parts := n })) d
  { s with dev := queueDesc l id o (queueJob l id o.op d) }

/-! ### The slots of a bundle -/

/-- A slot of the bundle at issue. -/
structure SlotIn where
  idx : Nat
  on : Bool
  pred : List Nat
  reads : List Nat
  writes : List Nat
  hold : Bool
  plan : Plan

/-- The flight issue duty of a landing, in sixteenths: the least that the limiter, its hall's rail and its gallery allow
(R133, R369, R375, R390). -/
def flightDuty (d : Dev) (l : Nat) : Nat :=
  min d.pwr.lim.duty (min (if hallOf l = 0 then d.pwr.lim.dutyW else d.pwr.lim.dutyE) (galGet d (galleryOf l)).duty)

/-- Cycles already allotted to mmac in the present frame of 16. -/
def openedNow (x : Landing) : Nat := if x.pipe.frame = x.pipe.cyc / 16 then x.pipe.opened else 0

/-- The present cycle is not one that the duty allots to mmac (R133). In each frame of 16 landing cycles the duty's number
of cycles is allotted; which ones is free, as the cycle's operand says, where the rest of the frame leaves the choice (log
entry 85). -/
def flightShut (d : Dev) (l : Nat) (c : CycleIn) : Bool :=
  let x := lndGet d l
  let duty := flightDuty d l
  if 16 ≤ duty then false
  else if duty ≤ openedNow x then true
  else if 16 - x.pipe.cyc % 16 ≤ duty - openedNow x then false
  else c.throttled

/-- The cycle counted in its frame, where the duty is below 16/16. -/
def countOpen (l : Nat) (shut : Bool) (x : Landing) (s : State) : State :=
  if 16 ≤ flightDuty s.dev l then s
  else onPipe l (fun p => { p with frame := x.pipe.cyc / 16, opened := openedNow x + b2n (!shut) }) s

/-- A resource may be read or written in cycle `t` (R85). -/
def resOk (x : Landing) (t res : Nat) : Bool := decide (spGet 0 x.pipe.rdy res ≤ t) && !(trkWrites x res)

/-- The flight, its tiles and buffers hold a matrix operation back (R85, R132, R133, R137). -/
def mHold (x : Landing) (t : Nat) (o : MOp) (thr : Bool) : Bool :=
  let a := o.f.acc.toNat
  let flight := decide (t < x.pipe.flightFree)
  let busy := decide (t < spGet 0 x.pipe.accBusy a)
  let late := decide (t < spGet 0 x.pipe.accRdy a)
  match o.op.toNat with
  | 1 => flight
  | 2 => flight || busy || thr
  | 3 => flight || busy || late
  | 4 => flight || late || decide (2 ≤ outBuffers x)
  | _ => false

/-- The first bad register, buffer or metadata area that a slot reads (R122, R174). -/
def badRead (r : LRegs) (reads : List Nat) : Option (Nat × Nat) :=
  reads.findSome? (fun k => let b := spGet (0, 0) r.bad k; if b = (0, 0) then none else some b)

/-- The slot's plan once its sources are good: a slot that acts reads all its sources, those of a vector operation without
an enabled lane too (log entry 86). -/
def goodPlan (r : LRegs) (reads : List Nat) (p : Plan) : Plan :=
  match badRead r reads with
  | some (c, a) => .fail c a
  | none => p

/-- Every operand of the slot is ready. -/
def slotReady (x : Landing) (t : Nat) (i : SlotIn) : Bool :=
  i.pred.all (resOk x t) && (!i.on || (i.reads.all (resOk x t) && i.writes.all (resOk x t) && !i.hold))

/-- The stores to its own store that a ready slot makes in this bundle, as later slots of the bundle find them (R84). -/
def ownStores (l t : Nat) (i : SlotIn) (s : State) : State :=
  if !i.on || i.plan.fault.isSome then s
  else i.plan.acts.foldl (fun s a =>
    match a with
    | .st _ _ _ => ((applyAct l t a s).toOption).getD s
    | .vst _ _ _ _ => ((applyAct l t a s).toOption).getD s
    | .scatter _ _ => ((applyAct l t a s).toOption).getD s
    | _ => s) s

/-- The slots of a bundle in their order S0, S1, V0, V1, M, X (R84); a descriptor that M or X names is read as the stores
of the earlier slots leave it. -/
def slotsOf (s : State) (l : Nat) (b : Bundle) (c : CycleIn) : List SlotIn :=
  let x := lndGet s.dev l
  let r := x.regs
  let t := x.pipe.cyc
  let h := b.h
  let late := if (actV0 b).op.toNat = 0x38 then sfuCycles (actV0 b).f.ty.toNat else 0
  let mk (idx op : Nat) (sel : BitVec 5) (on : Bool) (reads writes : List Nat) (hold : Bool) (p : Plan) : SlotIn :=
    ⟨idx, on && op != 0, if op = 0 then [] else pselRes sel, reads, writes, hold, goodPlan r reads p⟩
  let front : List SlotIn := [
   mk 0 (actS0 b).op.toNat h.pselS (pselOn r h.pselS) (sSrc (actS0 b)) (sDst (actS0 b)) false (planS s l b false),
   mk 1 (actS1 b).op.toNat h.pselS (pselOn r h.pselS) (sSrc (actS1 b)) (sDst (actS1 b)) false (planS s l b true),
   mk 2 (actV0 b).op.toNat h.pselV0 true (vSrc (actV0 b)) (vDst (actV0 b)) false (planV s l b (actV0 b) 3 h.pselV0 0),
   mk 3 (actV1 b).op.toNat h.pselV1 true (vSrc (actV1 b)) (vDst (actV1 b)) false (planV s l b (actV1 b) 4 h.pselV1 late)]
  let s' := front.foldl (fun s i => ownStores l t i s) s
  front ++ [
   mk 4 (actM b).op.toNat h.pselM (pselOn r h.pselM) (mSrc (actM b)) (mDst (actM b))
     (mHold x t (actM b) (flightShut s.dev l c)) (planM s' l b),
   mk 5 (actX b).op.toNat h.pselX (pselOn r h.pselX) (xSrc (actX b)) [] false (planX s' l b)]

/-- The plan of a slot that acts and whose sources are ready: what it starts and accesses is known then, whatever holds it
back still (R88). -/
def livePlan (x : Landing) (t : Nat) (i : SlotIn) : Option Plan :=
  if i.on && i.pred.all (resOk x t) && i.reads.all (resOk x t) then some i.plan else none

/-- The stop bit of the previous bundle is satisfied (R63, R85). -/
def stopOk (x : Landing) (t : Nat) : Bool :=
  decide (x.pipe.stopAt ≤ t) && x.pipe.stopTrk.all (fun id => (trkFind x id).isNone)

/-- A counter wait or a drain holds the bundle (R96, R98). -/
def waitHolds (s : State) (l : Nat) (b : Bundle) : Bool :=
  let x := lndGet s.dev l
  let o := actS0 b
  let i := o.op.toNat
  let ready := (pselRes b.h.pselS ++ sSrc o).all (resOk x x.pipe.cyc)
  if !(pselOn x.regs b.h.pselS) || !ready then false
  else if i = 0x39 then !x.trk.isEmpty
  else if i = 0x38 then
    let c := (regS x.regs o.f.sa.toNat).toNat % 4096
    let v := if o.f.useimm then immS (extOf b 1) o.f.imm20 else regS x.regs o.f.sb.toNat
    let k := ctrGet s.dev c
    (badRead x.regs (sSrc o)).isNone && ctrOwned s.dev x.kern.slot c && !k.err &&
      decide (k.val.toNat < w32In o.f.w32 v) && !x.pipe.timedOut
  else false

/-- The special-function unit, the divider, or the record limit of lock-step holds the bundle (R74, R83, R483). -/
def structHolds (s : State) (l : Nat) (b : Bundle) : Bool × Bool :=
  let x := lndGet s.dev l
  let t := x.pipe.cyc
  let r := x.regs
  let sfu := ((actV0 b).op.toNat == 0x38 || (actV1 b).op.toNat == 0x38) && decide (t < x.pipe.sfuFree)
  let div := (isDiv (actS0 b) || isDiv (actS1 b)) && pselOn r b.h.pselS && decide (t < x.pipe.divFree)
  let ls := (actM b).op.toNat == 4 && pselOn r b.h.pselM && lsFull s.dev && s.dev.ls.state == 2 &&
    (match runOf s.dev x.kern.slot l with
    | some (_, k) => k.compared
    | none => false)
  (sfu || div || ls, ls)

/-! ### The cycle -/

/-- A cycle without issue, counted under one cause (R88); `run` says whether the watchdog counts it. -/
def stallCycle (l off : Nat) (run : Bool) (s : State) : State :=
  let s := onDev (cntInc (lndBase l + off)) s
  let s := onLnd l (fun x => { x with
    phase := if run then .running else .waiting
    pipe := { x.pipe with cyc := x.pipe.cyc + 1, noIssue := if run then x.pipe.noIssue + 1 else 0 } }) s
  if 2 ^ 28 ≤ (lndGet s.dev l).pipe.noIssue then onDev (raiseWatchdog l) s else s

/-- A fault taken in this cycle. -/
def faultCycle (l slot cause addr : Nat) (s : State) : State :=
  let s := onDev (raiseFault l slot cause addr) s
  onPipe l (fun p => { p with cyc := p.cyc + 1 }) s

/-- The first fault in slot order, else the conflict of a slot with an operation an earlier slot starts (R84, R103). -/
def planFault : List (Nat × Plan) → Option (Nat × Nat × Nat)
  | [] => none
  | (i, p) :: t =>
    match p.fault with
    | some (c, a) => some (i, c, a)
    | none => planFault t

def planClash : List Plan → Bool
  | [] => false
  | p :: t =>
    (match p.start with
    | some o => t.any (fun q => rngsConflict o.rngs o.indirect q.acc)
    | none => false) || planClash t

/-- The slots act in order; a fault of one stops all. -/
def runSlots (l t : Nat) : List (Nat × Plan) → State → Except (Nat × BadRead) State
  | [], s => .ok s
  | (i, p) :: rest, s =>
    match applyActs l t p.acts s with
    | .error e => .error (i, e)
    | .ok s' => runSlots l t rest (match p.start with
        | some o => startAsync l o s'
        | none => s')

/-- The translations of a plan made: walks, cache entries, counters. -/
def accountXl (slot : Nat) (xl : List (Nat × Nat × Bool)) (s : State) : State :=
  xl.foldl (fun s p => (xlateRange s slot p.1 p.2.1 p.2.2).2) s

/-- The last cycle a register result of these acts becomes ready, for the stop bit (R63). -/
def stopCycle (t : Nat) (acts : List Act) : Nat :=
  acts.foldl (fun m a => max m (match a with
    | .setS _ _ lat => t + lat
    | .setP _ _ lat => t + lat
    | .setV _ _ lat => t + lat
    | .ld _ _ _ _ _ => t + 4
    | .mts _ _ => t + 2
    | .vld _ _ _ _ _ => t + 6
    | .gather _ _ _ lat => t + lat
    | _ => 0)) 0

/-- The bundle issues: its slots act, control moves on (R82, R86, R87). -/
def issueBundle (l : Nat) (b : Bundle) (live : List (Nat × Plan)) (s : State) : State :=
  let x := lndGet s.dev l
  let t := x.pipe.cyc
  let on := pselOn x.regs b.h.pselS
  let fl := flowOf x b on
  let s := accountXl x.kern.slot (live.flatMap (fun p => p.2.xl)) s
  match planFault live with
  | some (i, c, a) => faultCycle l i c a s
  | none =>
    if planClash (live.map (·.2)) then faultCycle l 7 0x01 0 s
    else
      match runSlots l t live s with
      | .error (i, e) => faultCycle l i e.cause e.addr
          (onDev (fun d => cntAdd (memBase + 0x450) e.cold (cntAdd (memBase + 0x448) e.poison d)) s)
      | .ok s =>
        let d := cntIf fl.miss (lndBase l + 0x140) (cntInc (lndBase l + 0x108) s.dev)
        let old := x.trkNext
        onLnd l (fun x => { x with
          phase := if x.phase = .draining then (if x.trk.isEmpty then .idle else .draining)
            else if x.phase = .halted then .halted else .running
          pipe := { x.pipe with
            pc := fl.next
            cyc := t + 1
            lost := fl.lost
            noIssue := 0
            reissue := false
            reach := none
            timedOut := false
            xcross := none
            stopAt := if b.h.stop then stopCycle t (live.flatMap (fun p => p.2.acts)) else 0
            stopTrk := if b.h.stop then
              (x.trk.filter (fun k => decide (old ≤ k.id) && k.dst.any (fun r => decide (r < 144)))).map (·.id) else [] } })
          { s with dev := d }

/-- The bundle at issue when no wait and no lost cycle holds it: the first cause of R88 that holds, else its issue. -/
def tryIssue (l : Nat) (c : CycleIn) (b : Bundle) (s : State) : State :=
  let x := lndGet s.dev l
  let t := x.pipe.cyc
  let slots := slotsOf s l b c
  let live := slots.filterMap (fun i => (livePlan x t i).map (fun p => (i.idx, p)))
  let starts := (live.filter (fun p => p.2.start.isSome)).length
  let cross := x.pipe.xcross.getD (live.map (fun p => p.2.cross)).sum
  let thr := flightShut s.dev l c && (actM b).op.toNat == 2 && pselOn x.regs b.h.pselM
  let s := onDev (cntIf thr (fltBase l + 0x28)) s
  let (st, ls) := structHolds s l b
  if 32 < x.trk.length + starts then stallCycle l 0x120 true s
  else if live.any (fun p => trkConflict x p.2.acc) then stallCycle l 0x118 true s
  else if !(slots.all (slotReady x t)) || !(stopOk x t) then stallCycle l 0x110 true s
  else if 0 < cross then stallCycle l 0x110 true (onPipe l (fun p => { p with xcross := some (cross - 1) }) s)
  else if st then stallCycle l 0x128 true (onDev (cntIf ls (dbgBase + 0x150)) s)
  else if c.parity then
    (if x.pipe.reissue then onDev (machineCheck l 0x10) s
    else stallCycle l 0x128 true (onPipe l (fun p => { p with reissue := true }) (onDev (cntInc (lndBase l + 0x148)) s)))
  else issueBundle l b live s

/-- The counter wait of the current bundle has timed out (R96). -/
def waitExpired (x : Landing) : Bool :=
  match x.pipe.reach with
  | some r => x.regs.waitTmo != 0 && decide (x.regs.waitTmo.toNat ≤ x.pipe.cyc - r)
  | none => false

/-- A tracker over the limit of R94. -/
def trkOverdue (x : Landing) : Option Nat :=
  (x.trk.find? (fun k => !k.timedOut && decide (2 ^ x.kern.trkLimit ≤ x.pipe.cyc - k.alloc))).map (·.id)

/-- A landing that runs, in one of its cycles. -/
def runCycle (l : Nat) (c : CycleIn) (b : Bundle) (s : State) : State :=
  let x := lndGet s.dev l
  match trkOverdue x with
  | some id => onDev (raiseTrkTimeout l id) s
  | none =>
    if c.internal then onDev (machineCheck l 0x12) s
    else if 0 < x.pipe.lost then
      stallCycle l 0x130 true (onPipe l (fun p => { p with lost := p.lost - 1 }) s)
    else if c.ifetch then onDev (machineCheck l 0x11) s
    else if 4096 ≤ x.pipe.pc || !(bundleLegal b) then faultCycle l 7 0x01 0 s
    else
      let s := onPipe l (fun p => { p with reach := some (p.reach.getD p.cyc) }) s
      let s := if waitExpired (lndGet s.dev l) then onPipe l (fun p => { p with timedOut := true }) s else s
      if waitHolds s l b then stallCycle l 0x138 false s else tryIssue l c b s

/-- The image, if any, that the cycle lets go leaves its output buffer (R137). -/
def imageGone (l : Nat) (c : CycleIn) (s : State) : State :=
  if c.imgOut then onLnd l (fun x => { x with trk := imageLeaves x.trk }) s else s

/-- One landing cycle with a bundle at issue (R85, R88): LND_CYCLE_CNT counts it while the landing runs. Ballast
runs, where the limiter sets any, in a cycle in which the flight has no matrix operation (R134). -/
def issueCycle (l : Nat) (c : CycleIn) (b : Bundle) (s : State) : State :=
  let x := lndGet s.dev l
  let runs := (x.phase == .running || x.phase == .waiting) && !(lsFrozen s.dev x.kern.ctx) && !s.dev.rst.clocksStopped
  let shut := flightShut s.dev l c
  let s := if runs then countOpen l shut x (runCycle l c b (onDev (cntInc (lndBase l + 0x100)) (imageGone l c s))) else s
  let idle := !runs || decide ((lndGet s.dev l).pipe.flightFree ≤ x.pipe.cyc)
  let fills := c.ballast && idle && !s.dev.rst.clocksStopped && !s.dev.rst.coreBusy && landUp s.dev l
  onDev (cntIf (fills && decide (0 < s.dev.pwr.lim.ballast)) (fltBase l + 0x50)) s

/-- The bundle the landing's index names; an index beyond the code reads as zeros (R101). -/
def fetched (d : Dev) (l : Nat) : Bundle :=
  let x := lndGet d l
  decodeBundle (spGet 0 x.imem x.pipe.pc)

end Sys2Proof.Machine
end

