-- ==== Sys2Proof/Machine/EngineOps.lean ====
section
/-! DEFINITION. What the move unit, the page streamers, the unpack engines and the top-k engines do to memory (R160 to
R165, R186 to R198, R209, R212). -/

namespace Sys2Proof.Machine

/-- The engine cause of a bad granule (R209). -/
def engCause (g : GSt) : Nat := if g = .cold then 0x04 else 0x03

/-- The engine cause of a failed translation (R209). -/
def engXlt : XltFail → Nat
  | .unmapped => 0x01
  | .perm => 0x02
  | .poison => 0x03

/-- A memory engine failure: counted, and the first after a clear recorded (R212). -/
def engFail (engine l ctx cause detail : Nat) (d : Dev) : Dev :=
  let d := cntInc (memBase + 0x4B0) d
  if d.memc.engErr.getLsbD 63 then d
  else
    let v := 2 ^ 63 + engine * 2 ^ 60 + ctx % 2 ^ 16 * 2 ^ 44 + l * 2 ^ 37 + cause * 2 ^ 32 + detail % 2 ^ 32
    { d with memc := { d.memc with engErr := BitVec.ofNat 64 v } }

/-- The outcome of an operation: its failure, as cause and detail. -/
abbrev Outc := Option (Nat × Nat)

/-- The first failure stays. -/
def firstFail (a b : Outc) : Outc :=
  match a with
  | some x => some x
  | none => b

/-! ### Move unit (R186) -/

/-- Copy one granule after the other; a bad source granule makes its destination poison. -/
def copyGrans (l src dst va : Nat) : Nat → Nat → Outc → State → State × Outc
  | 0, _, o, s => (s, o)
  | n + 1, i, o, s =>
    let (st, b, s) := readGran s (src + 64 * i)
    if st = .ok then copyGrans l src dst va n (i + 1) o (landWrite l (dst + 64 * i) (va + 64 * i) (b.map some) s)
    else
      copyGrans l src dst va n (i + 1) (firstFail o (some (engCause st, 64 * i)))
        (poisonRange (dst + 64 * i) 64 (some (lndGet s.dev l).kern.slot) s)

/-- Fill granules with a pattern. -/
def fillGrans (l dst va : Nat) (pat : List (Option Byte)) : Nat → Nat → State → State
  | 0, _, s => s
  | n + 1, i, s => fillGrans l dst va pat n (i + 1) (landWrite l (dst + 64 * i) (va + 64 * i) pat s)

/-! ### Unpack engines (R192 to R198) -/

/-- The code lengths of a table from its 128 bytes (R194). -/
def codeLens (b : List Byte) : List Nat := b.flatMap (fun x => [x.toNat % 16, x.toNat / 16])

/-- Codes of one length: consecutive numbers for its symbols in ascending order. -/
def codesOfLen (lens : List Nat) (n code : Nat) : List (Nat × Nat × Nat) :=
  (((lens.zipIdx).filter (fun p => p.1 == n)).zipIdx).map (fun p => (n, code + p.2, p.1.2))

/-- The canonical code: length, code and symbol (R194). -/
def canonCodes (lens : List Nat) : Nat → Nat → Nat → List (Nat × Nat × Nat)
  | 0, _, _ => []
  | f + 1, n, code =>
    let l := codesOfLen lens n code
    l ++ canonCodes lens f (n + 1) ((code + l.length) * 2)

/-- The sum of 2^-L over the codes, in units of 2^-15. -/
def kraft (lens : List Nat) : Nat := (lens.map (fun n => if n = 0 then 0 else 2 ^ (15 - n))).sum

/-- A table is valid for elements of `w` bits (R194). -/
def tableValid (lens : List Nat) (w : Nat) : Bool :=
  decide (kraft lens ≤ 2 ^ 15) && (lens.zipIdx).all (fun p => p.1 == 0 || decide (p.2 < 2 ^ w))

/-- The bits of a body in the order they are consumed (R195). -/
def bodyBits (b : List Byte) : List Bool := b.flatMap (fun x => (List.range 8).map (fun i => x.getLsbD i))

/-- A field of `k` bits, its first bit least significant. -/
def takeField : Nat → List Bool → Option (Nat × List Bool)
  | 0, l => some (0, l)
  | _ + 1, [] => none
  | k + 1, b :: t => (takeField k t).map (fun p => (b2n b + 2 * p.1, p.2))

/-- The scales after the first (R196). -/
def takeScales : Nat → Nat → List Bool → Option (List Nat × List Bool)
  | 0, _, l => some ([], l)
  | n + 1, p, l =>
    let next (v : Nat) (l : List Bool) : Option (List Nat × List Bool) :=
      (takeScales n v l).map (fun r => (v :: r.1, r.2))
    match l with
    | false :: t => next p t
    | true :: false :: t =>
      match takeField 2 t with
      | some (m, t) => next ((p + (if m < 2 then 254 + m else m - 1)) % 256) t
      | none => none
    | true :: true :: t =>
      match takeField 8 t with
      | some (v, t) => next v t
      | none => none
    | _ => none

/-- One symbol: bits are taken until they are a code; none after 15 bits or at the end of the body. -/
def takeSymbol (codes : List (Nat × Nat × Nat)) : Nat → Nat → Nat → List Bool → Option (Nat × List Bool)
  | 0, _, _, _ => none
  | _ + 1, _, _, [] => none
  | f + 1, n, code, b :: t =>
    let code := 2 * code + b2n b
    match codes.find? (fun c => c.1 == n + 1 && c.2.1 == code) with
    | some c => some (c.2.2, t)
    | none => takeSymbol codes f (n + 1) code t

def takeSymbols (codes : List (Nat × Nat × Nat)) : Nat → List Bool → Option (List Nat × List Bool)
  | 0, l => some ([], l)
  | n + 1, l =>
    match takeSymbol codes 15 0 0 l with
    | some (x, t) => (takeSymbols codes n t).map (fun r => (x :: r.1, r.2))
    | none => none

/-- The image of a tile from its elements and scales (R197). -/
def tileBytes (fmt : Nat) (elems scales : List Nat) : List Byte :=
  leBytes (128 * elemBits fmt) (packElems (elemBits fmt) elems) ++ scales.map (BitVec.ofNat 8)

/-- A mode 0 body decoded to an image; none where it is corrupt (R196). -/
def unpackBody (fmt : Nat) (lens : List Nat) (body : List Byte) : Option (List Byte) :=
  match takeField 8 (bodyBits body) with
  | none => none
  | some (s0, t) =>
    match takeScales 31 s0 t with
    | none => none
    | some (sc, t) =>
      match takeSymbols (canonCodes lens 15 1 0) 1024 t with
      | none => none
      | some (es, t) =>
        if t.length < 8 && t.all (fun b => !b) then some (tileBytes fmt es (s0 :: sc)) else none

/-- Bytes of a packed image (R117). -/
def packedSize (fmt : Nat) : Nat := imageSpan fmt 0 false

/-- Bytes of a slot (R197). -/
def slotSize (fmt : Nat) : Nat := 64 * ceilDiv (packedSize fmt) 64

/-- The code tables a job has read, by number. -/
abbrev Tables := List (Nat × List Nat)

/-- Code table `t` of the set at a physical address: a job reads each table it uses once (R194). -/
def readTable (set t : Nat) (seen : Tables) (s : State) : Except Nat (List Nat) × Tables × State :=
  match seen.find? (fun p => p.1 == t) with
  | some p => (.ok p.2, seen, s)
  | none =>
    let (r, s) := readRange s (set + 128 * t) 128
    match r.bad with
    | some (_, g) => (.error (engCause g), seen, s)
    | none => (.ok (codeLens r.bytes), (t, codeLens r.bytes) :: seen, s)

/-- The tile at an offset of the packed input: its length, format and image, or the cause that stops the job (R195,
R196, R198). -/
def unpackTile (src len set off : Nat) (seen : Tables) (s : State) :
    Except Nat (Nat × Nat × List Byte) × Tables × State :=
  if len - off < 4 then (.error 0x06, seen, s)
  else
    let (h, s) := readRange s (src + off) 4
    match h.bad with
    | some (_, g) => (.error (engCause g), seen, s)
    | none =>
      let w : W32 := BitVec.ofNat 32 (leNat h.bytes)
      let mode := fieldN w 20 19
      let fmt := fieldN w 18 15
      let n := fieldN w 10 0
      let sizeOk := if mode = 2 then n == 4 else if mode = 1 then n == 4 + packedSize fmt else decide (4 < n)
      if fieldN w 31 21 ≠ 0 ∨ mode = 3 ∨ 5 < fmt ∨ sizeOk = false ∨ len - off < n then (.error 0x06, seen, s)
      else
        let (b, s) := readRange s (src + off + 4) (n - 4)
        match b.bad with
        | some (_, g) => (.error (engCause g), seen, s)
        | none =>
          if mode = 2 then
            (.ok (n, fmt, tileBytes fmt (List.replicate 1024 0) (List.replicate 32 0x7F)), seen, s)
          else if mode = 1 then (.ok (n, fmt, b.bytes), seen, s)
          else
            let (t, seen, s) := readTable set (fieldN w 14 11) seen s
            match t with
            | .error c => (.error c, seen, s)
            | .ok lens =>
              if !(tableValid lens (elemBits fmt)) then (.error 0x07, seen, s)
              else
                match unpackBody fmt lens b.bytes with
                | some img => (.ok (n, fmt, img), seen, s)
                | none => (.error 0x06, seen, s)

/-- The tiles of a job in turn; answers the bytes of capacity written (R197, R198). -/
def unpackRun (l src len dst va cap set : Nat) : Nat → Nat → Nat → Tables → State → State × Nat × Outc
  | 0, _, out, _, s => (s, out, none)
  | n + 1, off, out, seen, s =>
    if len ≤ off then (s, out, none)
    else
      let (r, seen, s) := unpackTile src len set off seen s
      match r with
      | .error c => (s, out, some (c, off))
      | .ok (m, fmt, img) =>
        if cap < out + slotSize fmt then (s, out, some (0x05, off))
        else
          let b := img ++ List.replicate (slotSize fmt - img.length) 0
          let s := landWrite l (dst + out) (va + out) (b.map some) s
          let s := onDev (fun d => cntAdd (memBase + 0x4A8) (packedSize fmt) (cntAdd (memBase + 0x4A0) m
            (cntInc (memBase + 0x498) d))) s
          unpackRun l src len dst va cap set n (off + m) (out + slotSize fmt) seen s

/-! ### Page streamers (R187 to R191) -/

/-- The header of a block table. -/
structure BlockHdr where
  page : Nat
  subOff : Nat
  subLen : Nat
  lastLen : Nat

/-- The header of 64 bytes, none where it is invalid (R189). -/
def blockHdr (b : List Byte) : Option BlockHdr :=
  let x := payloadOf b
  let p := dField x 0 1
  let page := 2 ^ p
  let so := dField x 4 4
  let sl := dField x 8 4
  let ll := dField x 12 4
  if 14 ≤ p ∧ p ≤ 18 ∧ dField x 1 3 = 0 ∧ dField x 16 48 = 0 ∧ so % 64 = 0 ∧ sl % 64 = 0 ∧ ll % 64 = 0 ∧ 64 ≤ sl ∧
      so + sl ≤ page ∧ 64 ≤ ll ∧ ll ≤ sl then some ⟨page, so, sl, ll⟩
  else none

/-- An entry is well formed (R189). -/
def entryOk (h : BlockHdr) (e : Nat) : Bool :=
  decide (e < 2 ^ 48) && e / 2 % 2 ^ 13 == 0 && (e - e % 2) % h.page == 0

/-- The bytes of one stream page, translated in pieces of 4 KiB: a bad granule makes its destination poison and the rest
of the page still follows, a piece that fails ends it (R190, R191). Answers the bytes that are past. -/
def streamPage (l slot : Nat) : Nat → Nat → Nat → Nat → Nat → Nat → Outc → State → State × Nat × Outc
  | 0, _, _, _, _, done, o, s => (s, done, o)
  | n + 1, src, rest, dst, va, done, o, s =>
    if rest = 0 then (s, done, o)
    else
      let m := min rest (4096 - src % 4096)
      let (r, s) := xlateRange s slot src m false
      match r with
      | .error (x, _) => (s, done, firstFail o (some (engXlt x, 0)))
      | .ok (pa, _) =>
        if !(tierDram (tierOf pa)) then (s, done, firstFail o (some (0x02, 0)))
        else
          let (s, o) := copyGrans l pa dst va (m / 64) 0 o s
          streamPage l slot n (src + m) (rest - m) (dst + m) (va + m) (done + m) o s

/-- The entries of a block table in turn; answers the bytes written (R190, R191). -/
def streamRun (l dst va : Nat) (h : BlockHdr) (n : Nat) : List Nat → Nat → Nat → State → State × Nat × Outc
  | [], _, out, s => (s, out, none)
  | e :: es, i, out, s =>
    let m := if i + 1 = n then h.lastLen else h.subLen
    let slot := (lndGet s.dev l).kern.slot
    if e % 2 = 1 then
      streamRun l dst va h n es (i + 1) (out + m)
        (fillGrans l (dst + out) (va + out) (List.replicate 64 (some 0)) (m / 64) 0 s)
    else
      let (s, done, o) := streamPage l slot (m / 4096 + 2) (e + h.subOff) m (dst + out) (va + out) 0 none s
      match o with
      | some (c, _) => (s, out + done, some (c, i))
      | none => streamRun l dst va h n es (i + 1) (out + m) s

/-- The words of a block table after its header. -/
def blockWords : Nat → List Byte → List Nat
  | 0, _ => []
  | n + 1, b => leNat (b.take 8) :: blockWords n (b.drop 8)

/-- A streamer job: the bytes written and its outcome (R189 to R191). A job that fails before any page has no entry
to name: its detail is 0, and the entries are checked before the total (log entry 82). -/
def streamJob (l dst va cap table len : Nat) (s : State) : State × Nat × Outc :=
  let (r, s) := readRange s table len
  match r.bad with
  | some (_, g) => (s, 0, some (engCause g, 0))
  | none =>
    match blockHdr (r.bytes.take 64) with
    | none => (s, 0, some (0x08, 0))
    | some h =>
      let n := (len - 64) / 8
      let es := blockWords n (r.bytes.drop 64)
      match (es.zipIdx).find? (fun p => !(entryOk h p.1)) with
      | some p => (s, 0, some (0x08, p.2))
      | none =>
        if cap < (n - 1) * h.subLen + h.lastLen then (s, 0, some (0x05, 0))
        else streamRun l dst va h n es 0 0 s

/-! ### Top-k engine (R160 to R165) -/

/-- Entries of a source. -/
def topkEntries (es : Nat) : Nat → List Byte → List Nat
  | 0, _ => []
  | n + 1, b => leNat (b.take es) :: topkEntries es n (b.drop es)

/-- Landing cycles that the path of a source takes for its bytes (R164, R180): 256 bytes a cycle from a store, the
bandwidth of its memory else, at the clock of the gallery, within the link of the halls. -/
def topkPath (d : Dev) (g src bytes : Nat) : Nat :=
  let at_ (tb : Nat) : Nat := ceilDiv (bytes * (galGet d g).clk * 25) (tb * 10 ^ 6)
  let store (h : Nat) : Nat := if h = g / 6 then ceilDiv bytes 256 else max (ceilDiv bytes 256) (at_ 6)
  match tierOf src with
  | .mezz => at_ (if (src - 2 ^ 40) / 0x0800000000 = g / 6 then 36 else 6)
  | .stack => at_ 3
  | .gallery k => store (k / 6)
  | .store l => store (hallOf l)
  | _ => ceilDiv bytes 256

/-- GAL_TOPK_BUSY_CNT over the service of a job: the bound of R164 is its time for no entries, else the time is a free
value within the bound (log entry 83). -/
def topkBusy (g src n es k : Nat) (d : Dev) : Dev :=
  let c := galBase g + 0x120
  if n = 0 then cntAdd c (48 + k) d
  else
    let (v, d) := drawFree d
    cntAdd c (v.toNat % (48 + topkPath d g src (n * es) + k + 1)) d

/-- Bytes of an entry of a top-k source (R160). -/
def topkSize (ty : Nat) : Nat := if ty = 1 ∨ ty = 2 then 2 else 4

/-- A top-k job. One that reads a bad granule has read all its entries, and the NaNs among them count as the granules
hold them (R165, R167; log entry 83). -/
def topkJob (l src dst va n ty : Nat) (smallest : Bool) (k base : Nat) (s : State) : State × Bool :=
  let g := galBase (galleryOf l)
  let es := topkSize ty
  let (r, s) := readRange s src (n * es)
  let s := onDev (fun d => topkBusy (galleryOf l) src n es k (cntAdd (g + 0x108) n (cntInc (g + 0x100) d))) s
  let ents := topkEntries es n r.bytes
  let s := onDev (cntAdd (g + 0x110) ((ents.filter (topkNan ty)).length)) s
  if r.poison then
    (poisonRange dst (8 * k) (some (lndGet s.dev l).kern.slot) (onDev (cntInc (g + 0x118)) s), true)
  else (landWrite l dst va ((topkOutput ty base smallest k ents).map some) s, false)

end Sys2Proof.Machine
end

