-- ==== Sys2Proof/Machine/Retire.lean ====
section
/-! DEFINITION. The retirement of a range tracker: what its operation does to registers, buffers and memory, and what
follows it (R92, R121, R122, R141, R174, R186 to R198, R224). -/

namespace Sys2Proof.Machine

/-! ### Loads -/

/-- The bytes that window answers have brought, by offset. -/
def gotBytes (n : Nat) (got : List Piece) : List Byte :=
  (List.range n).map (fun i =>
    (got.findSome? (fun p => if p.off ≤ i then p.bytes[i - p.off]? else none)).getD 0)

/-- Granules read one after the other, given as physical and virtual address, each touched and counted: the lowest bad
one, as cause and address (R202, R207). -/
def readGrans : List (Nat × Nat) → State → Option (Nat × Nat) × State
  | [], s => (none, s)
  | (pa, va) :: t, s =>
    let (st, _, s) := readGran s pa
    let (e, s) := readGrans t s
    (if st = .ok then e else some (gstCause st, va), s)

/-- The bytes of a tracked load from its first granule on, or its bad mark: cause and address (R92, R122, R174). `grans`
are the granules it reads, `skip` the bytes of the access before them. A load of module memory that meets poison or a cold granule marks its register bad, and the
first bundle that reads the register takes the fault, as R174 says of a window load (log entry 84). -/
def loadBytes (t : Tracker) (pa va skip n : Nat) (grans : List (Nat × Nat)) (s : State) :
    (Except (Nat × Nat) (List Byte)) × State :=
  if tierWindow (tierOf pa) then
    (if t.gotBad then (.error (0x04, va - skip), s) else (.ok (gotBytes n t.got), s))
  else
    match readGrans grans s with
    | (some e, s) => (.error e, s)
    | (none, s) => (.ok (peekBytes s pa n), s)

/-- Pieces of a tile image read from memory, with the lowest bad granule as a virtual address. -/
def readPieces (pa va : Nat) : List (Nat × Nat) → State → List (List Byte) × Option (Nat × Nat) × State
  | [], s => ([], none, s)
  | (o, n) :: t, s =>
    let (r, s) := readRange s (pa + o) n
    let b := r.bad.map (fun x => (gstCause x.2, va + (x.1 - pa)))
    let (l, c, s) := readPieces pa va t s
    (r.bytes :: l, (match b, c with
      | some x, some y => some (if x.2 ≤ y.2 then x else y)
      | some x, none => some x
      | none, y => y), s)

/-- The lines of a buffer from an image's lines and scale area (R115). -/
def bufLines (dual : Bool) (lines : List (List Byte)) (scales : List Byte) : List BufLine :=
  (lines.zipIdx).map (fun p =>
    if dual then bufLineOf p.1 (scales.getD (2 * p.2) 0) (scales.getD (2 * p.2 + 1) 0)
    else bufLineOf p.1 (scales.getD p.2 0) 0)

/-- Lines stored from an index on. -/
def putLines (m : Sparse BufLine) (base : Nat) (ls : List BufLine) : Sparse BufLine :=
  (ls.zipIdx).foldl (fun m p => spPut 0 (base + p.2) p.1 m) m

/-- A tile load's buffer, or its bad mark (R115, R122). -/
def retireMload (l : Nat) (toB : Bool) (b fmt stride : Nat) (dual : Bool) (pa va : Nat) (s : State) : State :=
  let res := if toB then 156 + b else 152 + b
  let (ls, bad, s) := readPieces pa va (imagePieces fmt stride dual) s
  match bad with
  | some (c, a) => onRegs l (setBad res c a) s
  | none =>
    let lines := bufLines dual (ls.take 32) ((ls[32]?).getD [])
    onRegs l (fun r => clearBad res
      (if toB then { r with fb := putLines r.fb (32 * b) lines } else { r with fa := putLines r.fa (32 * b) lines })) s

/-- A metadata load (R118, R131). -/
def retireMeta (l b pa va : Nat) (s : State) : State :=
  let (ls, bad, s) := readPieces pa va ((List.range 32).map (fun j => (8 * j, 8))) s
  match bad with
  | some (c, a) => onRegs l (setBad (160 + b) c a) s
  | none => onRegs l (fun r => clearBad (160 + b)
      { r with md := (ls.zipIdx).foldl (fun m p => spPut 0 (32 * b + p.2) (BitVec.ofNat 64 (leNat p.1)) m) r.md }) s

/-! ### Tile stores -/

/-- The granules that the pieces of an image touch, in ascending order, with the bytes each holds (R141). -/
def granImage (base : Nat) (img : List Piece) : List (Nat × List (Option Byte)) :=
  let gs := (img.flatMap (fun p =>
    (List.range (granCount (base + p.off) p.bytes.length)).map (fun i => (base + p.off) / 64 + i))).foldl
      (fun acc g => nsInsert g acc) []
  gs.map (fun g =>
    (64 * g, (List.range 64).map (fun j =>
      img.findSome? (fun p =>
        if base + p.off ≤ 64 * g + j then p.bytes[64 * g + j - (base + p.off)]? else none))))

/-- An mstore's granule writes (R141). -/
def retireMstore (l pa va : Nat) (img : List Piece) (s : State) : State :=
  (granImage pa img).foldl (fun s g => landWrite l g.1 (va + g.1 - pa) g.2 s) s

/-! ### Retirement -/

/-- Poison left in the granules of a range that a failed operation did not write (R92). -/
def poisonRest (l dst cap out : Nat) (s : State) : State :=
  if out < cap then poisonRange (dst + out) (cap - out) (some (lndGet s.dev l).kern.slot) s else s

/-- The effect of a tracker's operation, with its failure for the notified counter. A window load whose data arrives
poisoned counts as failed in MEM_WIN_FAIL_CNT (R174, R215; log entry 84). -/
def retireOp (l : Nat) (t : Tracker) (s : State) : State × Bool :=
  let ctx := (lndGet s.dev l).kern.ctx
  let slot := (lndGet s.dev l).kern.slot
  match t.op with
  | .ld sd n pa va w =>
    let (r, s) := loadBytes t pa va 0 n [(pa, va)] s
    match r with
    | .error (c, a) => (onRegs l (setBad sd c a) (onDev (cntIf (tierWindow (tierOf pa)) (memBase + 0x478)) s), true)
    | .ok b => (onRegs l (putS sd (w32Val w (BitVec.ofNat 64 (leNat b)))) s, false)
  | .vld vd pa va _ mask zero =>
    let (r, s) := loadBytes t pa va (maskSpan mask).1 (maskSpan mask).2 (laneGrans pa va mask) s
    match r with
    | .error (c, a) =>
      (onRegs l (setBad (64 + vd) c a) (onDev (cntIf (tierWindow (tierOf pa)) (memBase + 0x478)) s), true)
    | .ok b => (vldPut l vd mask zero b s, false)
  | .st pa va b =>
    if tierWindow (tierOf pa) then
      (if t.gotBad then (onDev (fun d => runMod slot l (fun k => { k with windowFail := true })
          (cntInc (memBase + 0x478) d)) s, true) else (s, false))
    else (landWrite l pa va (b.map some) s, false)
  | .vst pa va b en =>
    if tierWindow (tierOf pa) then
      (if t.gotBad then (onDev (fun d => runMod slot l (fun k => { k with windowFail := true })
          (cntInc (memBase + 0x478) d)) s, true) else (s, false))
    else (landWrite l pa va (b.zipWith (fun b e => if e then some b else none) en) s, false)
  | .mload toB b fmt stride dual pa va => (retireMload l toB b fmt stride dual pa va s, false)
  | .mloadMeta b pa va => (retireMeta l b pa va s, false)
  | .mstore pa va img => (retireMstore l pa va img s, false)
  | .soc _ _ _ => (s, false)
  | .xcopy src dst va len =>
    let (s, o) := copyGrans l src dst va (len / 64) 0 none s
    let s := onDev (cntInc (memBase + 0x480)) s
    match o with
    | some (c, d) => (onDev (engFail 1 l ctx c d) s, true)
    | none => (s, false)
  | .xfill dst va len pat =>
    let b := (leBytes 8 pat.toNat).map some
    let s := fillGrans l dst va (List.replicate 8 b).flatten (len / 64) 0 s
    (onDev (cntInc (memBase + 0x480)) s, false)
  | .xunpack src len dst va cap tables =>
    let (s, out, o) := unpackRun l src len dst va cap tables (len + 1) 0 0 [] s
    match o with
    | some (c, d) => (onDev (engFail 3 l ctx c d) (poisonRest l dst cap out s), true)
    | none => (s, false)
  | .xstream dst va cap table len =>
    let (s, out, o) := streamJob l dst va cap table len s
    let s := onDev (fun d => cntAdd (memBase + 0x490) out (cntInc (memBase + 0x488) d)) s
    match o with
    | some (c, d) => (onDev (engFail 2 l ctx c d) (poisonRest l dst cap out s), true)
    | none => (s, false)
  | .xnic _ => (s, false)
  | .xtrig _ => (s, false)
  | .xtopk src dst va n ty smallest k base => topkJob l src dst va n ty smallest k base s

/-- Ranges that an operation writes in this module, as address and length. -/
def opWrites (op : AsyncOp) : List (Nat × Nat) :=
  match op with
  | .st pa _ b => if tierWindow (tierOf pa) then [] else [(pa, b.length)]
  | .vst pa _ _ en => if tierWindow (tierOf pa) then [] else
      ((List.range (en.length / 64)).filter (fun i => ((en.drop (64 * i)).take 64).any id)).map (fun i => (pa + 64 * i, 64))
  | .mstore pa _ img => img.map (fun p => (pa + p.off, p.bytes.length))
  | .xcopy _ dst _ len => [(dst, len)]
  | .xfill dst _ len _ => [(dst, len)]
  | .xunpack _ _ dst _ cap _ => [(dst, cap)]
  | .xstream dst _ cap _ _ => [(dst, cap)]
  | .xtopk _ dst _ _ _ _ k _ => [(dst, 8 * k)]
  | _ => []

/-- The engine number of an operation in MEM_ENG_ERR, 0 for none (R212). -/
def opEngine (op : AsyncOp) : Nat :=
  match op with
  | .xcopy _ _ _ _ => 1
  | .xfill _ _ _ _ => 1
  | .xstream _ _ _ _ _ => 2
  | .xunpack _ _ _ _ _ _ => 3
  | _ => 0

/-- An operation ended without its effect, with a cause of R209: its unwritten granules become poison, its failure is
recorded (R92, R209, R448). -/
def failOp (l : Nat) (t : Tracker) (cause detail : Nat) (s : State) : State :=
  let slot := (lndGet s.dev l).kern.slot
  let ctx := (lndGet s.dev l).kern.ctx
  let s := (opWrites t.op).foldl (fun s p => poisonRange p.1 p.2 (some slot) s) s
  let e := opEngine t.op
  let s := if e = 0 then s else onDev (engFail e l ctx cause detail) s
  match t.op with
  | .xtopk src _ _ n ty _ k _ =>
    let s := onDev (fun d => cntInc (galBase (galleryOf l) + 0x118) (cntInc (galBase (galleryOf l) + 0x100) d)) s
    if t.ready then onDev (topkBusy (galleryOf l) src n (topkSize ty) k) s else s
  | .xstream _ _ _ _ _ => onDev (cntInc (memBase + 0x488)) s
  | _ => s

/-- A tracker leaves its landing; a draining landing without trackers is idle (R102). -/
def dropTracker (l id : Nat) (s : State) : State :=
  onLnd l (fun x =>
    let t := x.trk.filter (fun t => t.id != id)
    { x with trk := t, phase := if x.phase = .draining ∧ t = [] then .idle else x.phase }) s

/-- A job leaves the queues and the service of its engine. -/
def dropJob (l id : Nat) (d : Dev) : Dev :=
  let f (q : Sparse (List Job)) : Sparse (List Job) :=
    (q.map (fun e => (e.1, e.2.filter (fun j => !(j.landing == l && j.trk == id))))).filter (fun e => !e.2.isEmpty)
  { d with memc := { d.memc with
      strQ := f d.memc.strQ, strRun := f d.memc.strRun, upkQ := f d.memc.upkQ, upkRun := f d.memc.upkRun
      topQ := f d.memc.topQ, topRun := f d.memc.topRun } }

/-- The operations whose X-slot counter the tracker's retirement notifies; a descriptor's counts with its completion
(R79, R322). -/
def notifiesAtRetire (op : AsyncOp) : Bool :=
  match op with
  | .xnic _ => false
  | .xtrig _ => false
  | .soc _ _ _ => false
  | _ => true

/-- The retirement of a tracker (R92, R224): its operation's effect, or its failure, then its counter. -/
def retireTracker (l : Nat) (t : Tracker) (s : State) : State :=
  let slot := (lndGet s.dev l).kern.slot
  let (s, fail) := match t.failed with
    | some (c, d) => (failOp l t c d s, true)
    | none =>
      match t.op with
      | .xtrig pa => (armTrigger slot pa t.notify (kernelOf (lndGet s.dev l)) s, false)
      | _ => retireOp l t s
  let s := dropTracker l t.id (onDev (dropJob l t.id) s)
  match t.notify with
  | some c => if notifiesAtRetire t.op then ctrUpdates [⟨c, 1, fail⟩] s else s
  | none => s

end Sys2Proof.Machine
end

