-- ==== Sys2Proof/Machine/Nic.lean ====
section
/-! DEFINITION. The descriptor queue: which descriptor starts, its checks, and the data operations (R314 to R324, R337). -/

namespace Sys2Proof.Machine

/-! ### The queue (R314, R321, R337, R456, R485) -/

/-- A scrub of the slot is in progress (R456). -/
def scrubbing (d : Dev) (slot : Nat) : Bool :=
  match d.health.scrub with
  | some c => c.slot == slot
  | none => false

/-- The descriptors of a slot may start: its ring is not full and lock-step has not frozen it (R337, R485). -/
def slotMayStart (s : State) (slot : Nat) : Bool :=
  (spGet [] s.dev.nic.held slot).isEmpty && (cqRoom s slot).1 && !(lsFrozen s.dev (ctxWord s.dev slot))

/-- The first descriptor that may start, of those that have a place in the queue. -/
def nicHead (s : State) : Option DqEnt :=
  if s.dev.nic.stopped then none else (s.dev.nic.dq.take dqCap).find? (fun e => slotMayStart s e.slot)

/-- A queue without its first entry equal to `e`. -/
def dqErase (e : DqEnt) : List DqEnt → List DqEnt
  | [] => []
  | x :: t => if x = e then t else x :: dqErase e t

def dqDrop (e : DqEnt) (d : Dev) : Dev := { d with nic := { d.nic with dq := dqErase e d.nic.dq } }

/-- The local counter of a descriptor: the X-slot counter of an xnic with notify, or its own (R322). -/
def entLctr (e : DqEnt) (x : BitVec 512) : Option Nat :=
  match e.src.xctr with
  | some c => some c
  | none => descLctr x

/-- The granules that a landing's tracker for a descriptor was to write, when nothing of it is done, become poison (R92,
R448 step 2). -/
def poisonSrc (slot : Nat) (t : Option (Nat × Nat)) (s : State) : State :=
  match t.bind (fun p => trkFind (lndGet s.dev p.1) p.2) with
  | some t => (t.rngs.filter Rng.wr).foldl (fun s r => poisonRange (64 * r.lo) (64 * (r.hi + 1 - r.lo)) (some slot) s) s
  | none => s

/-- A descriptor that fails its checks: it sends nothing and completes with bad_descriptor (R321, R327). -/
def descBad (e : DqEnt) (x : BitVec 512) (cause : Nat) (s : State) : State :=
  let s := poisonSrc e.slot e.src.trk s
  let s := { s with dev := markReady e.src.trk s.dev }
  finishDesc ⟨e.slot, descTag x, 0xD, 0, cause, descKind (descOp x), 0, 0, descFlag x 2, entLctr e x⟩ s

/-- A descriptor that nothing can be read of (R321). -/
def descUnreadable (e : DqEnt) (s : State) : State :=
  let s := poisonSrc e.slot e.src.trk s
  let s := { s with dev := markReady e.src.trk s.dev }
  finishDesc ⟨e.slot, 0, 0xD, 0, 0x4B, 0, 0, 0, false, e.src.xctr⟩ s

/-- A descriptor of a context that is being scrubbed: its error notice, its record (R327, R456). -/
def descAborted (e : DqEnt) (x : BitVec 512) (s : State) : State :=
  let s := poisonSrc e.slot e.src.trk s
  let d := markReady e.src.trk s.dev
  let d := match descRctr x with
    | some r => errorNotice e.slot (descClass x) (descDst x) r d
    | none => d
  let d := { d with health := { d.health with scrub := d.health.scrub.map (fun c => { c with items := c.items + 1 }) } }
  finishDesc ⟨e.slot, descTag x, 4, 0, 0xFF, descKind (descOp x), 0, 0, descFlag x 2, entLctr e x⟩ { s with dev := d }

/-- A descriptor as the NIC reads it: its 64 bytes, none where they are poison or cold. -/
def entRead (e : DqEnt) (s : State) : Option (BitVec 512) × State :=
  match e.descPa with
  | none => (some e.desc, s)
  | some pa =>
    let (r, s) := readRange s pa 64
    (if r.poison then none else some (payloadOf r.bytes), s)

/-- The op at the head of the queue; none where the head is unreadable or its op is reserved, which any of the commands
that process the queue disposes of. -/
def headOp (d : DqEnt) (s : State) : Option Nat :=
  match (entRead d s).1 with
  | some x => if descOpLegal (descOp x) then some (descOp x) else none
  | none => none

/-- The NIC takes the first descriptor that may start, if it is of this op, and acts on it. -/
def nicTake (op : Nat) (act : DqEnt → BitVec 512 → State → State) (s : State) : State :=
  match nicHead s with
  | none => s
  | some e =>
    let o := headOp e s
    if o.isSome && o != some op then s
    else
      let (x, s) := entRead e { s with dev := dqDrop e s.dev }
      match x with
      | none => descUnreadable e s
      | some x =>
        if scrubbing s.dev e.slot then descAborted e x s
        else if descOpLegal (descOp x) then act e x s
        else descBad e x 0x40 s

/-! ### Data operations -/

/-- A new item for a descriptor; its number. -/
def itemNew (e : DqEnt) (x : BitVec 512) (cells : Nat) (notifyEnd newUe poison : Bool) (d : Dev) : Nat × Dev :=
  let id := d.nic.itemNext
  let it : Item :=
    { id := id, slot := e.slot, ctx := ctxWord d e.slot, kind := descKind (descOp x), tag := descTag x
      cls := descClass x, dst := descDst x, rctr := descRctr x, notifyEnd := notifyEnd, lctr := entLctr e x
      stamp := descFlag x 2, cells := cells, confirmed := 0, failed := 0, firstFail := 0, firstCause := 0xFF
      newUe := newUe, poison := poison, src := e.src }
  (id, { d with nic := { d.nic with itemNext := id + 1, items := snoc d.nic.items it } })

/-- Cells of an item sent one after the other. -/
def sendAll (id : Nat) : List (Cell × AnsPlace) → Dev → Dev
  | [], d => d
  | (c, p) :: t, d => sendAll id t (itemSend id c p d)

/-- A granule that holds a byte of the range reads as poison or cold. -/
def rangeBad (s : State) (pa n : Nat) : Bool :=
  (List.range (granCount pa n)).any (fun i => decide ((granAt s (64 * (pa / 64 + i))).1 ≠ .ok))

/-- A new uncorrectable error found in a range, at the granule that holds `ue` (R199, R334). -/
def meetUe (ue : Option Nat) (pa n : Nat) (s : State) : State × Bool :=
  match ue with
  | none => (s, false)
  | some a =>
    if pa / 64 ≤ a / 64 ∧ a / 64 ≤ (pa + n - 1) / 64 ∧ 0 < n then (uncorrectable a s, true) else (s, false)

/-- The cells of a put: address, bytes and poison of each (R319). -/
def putCells (e : DqEnt) (x : BitVec 512) (d : Dev) (l : List (Nat × List Byte × Bool)) : List (Cell × AnsPlace) :=
  let ctr := if descFlag x 3 then none else descRctr x
  let cw := ctxWord d e.slot
  let k3 := k3Node d (descDst x)
  l.zipIdx.map (fun p =>
    (writeCell (descClass x) (descDst x) cw p.1.1 p.1.2.1 ctr (p.2 + 1 == l.length) p.1.2.2 k3, .none))

/-- The pieces of a put from local memory. -/
def putPieces (s : State) (pa raddr len : Nat) (bytes : List Byte) (k3 : Bool) : List (Nat × List Byte × Bool) :=
  (writeSpans k3 raddr len).map (fun p =>
    (p.1, (bytes.drop (p.1 - raddr)).take p.2, rangeBad s (pa + (p.1 - raddr)) p.2))

/-- The pieces of a send-on-complete: one for each granule that holds image bytes, cut shorter for a K3 node (R143). -/
def socPieces (raddr : Nat) (img : List Piece) (k3 : Bool) : List (Nat × List Byte × Bool) :=
  (granImage raddr img).flatMap (fun g =>
    let bytes := (g.2.takeWhile Option.isSome).map (fun b => b.getD 0)
    (writeSpans k3 g.1 bytes.length).map (fun p => (p.1, (bytes.drop (p.1 - g.1)).take p.2, false)))

/-- A put that has passed its checks. -/
def nicPut (e : DqEnt) (x : BitVec 512) (pieces : List (Nat × List Byte × Bool)) (newUe : Bool) (s : State) : State :=
  let cells := putCells e x s.dev pieces
  let (id, d) := itemNew e x cells.length (descFlag x 3 && descFlag x 4) newUe (pieces.any (fun p => p.2.2)) s.dev
  itemSettle id { s with dev := markReady e.src.trk (sendAll id cells d) }

/-- PUT (R143, R319). -/
def actPut (ue : Option Nat) (e : DqEnt) (x : BitVec 512) (s : State) : State :=
  match dataCheck s e.slot x (entLctr e x) e.image.isSome e.descPa.isNone with
  | (.error c, s) => descBad e x c s
  | (.ok pa, s) =>
    let k3 := k3Node s.dev (descDst x)
    match e.image with
    | some img => nicPut e x (socPieces (descRaddr x) img k3) false s
    | none =>
      let n := descLen x
      let (s, newUe) := meetUe ue pa n s
      let (r, s) := readRange s pa n
      nicPut e x (putPieces s pa (descRaddr x) n r.bytes k3) newUe s

/-- GET (R320). -/
def actGet (e : DqEnt) (x : BitVec 512) (s : State) : State :=
  match dataCheck s e.slot x (entLctr e x) e.image.isSome e.descPa.isNone with
  | (.error c, s) => descBad e x c s
  | (.ok pa, s) =>
    let spans := readSpans (k3Node s.dev (descDst x)) (descRaddr x) (descLen x)
    let cw := ctxWord s.dev e.slot
    let cells := spans.zipIdx.map (fun p =>
      let q := pa + (p.1.1 - descRaddr x)
      (getCell (descClass x) (descDst x) cw p.1.1 p.1.2 q (p.2 + 1 == spans.length), AnsPlace.bytes q))
    let (id, d) := itemNew e x cells.length false false false s.dev
    itemSettle id { s with dev := sendAll id cells d }

/-- The payload of an ATOMIC_REQ (R324). -/
def atomicBytes (x : BitVec 512) (pa : Nat) : List Byte :=
  leBytes 8 (dField x 40 8) ++ leBytes 8 (dField x 48 8) ++ leBytes 1 (descFn x) ++ leBytes 1 (descTy x) ++
    leBytes 5 (pa / 64) ++ leBytes 1 (pa % 64) ++ leBytes 1 (descRaddr x % 64) ++
    leBytes 1 (b2n (descLaddr x != 0))

/-- ATOMIC (R323, R324). -/
def actAtomic (e : DqEnt) (x : BitVec 512) (s : State) : State :=
  match dataCheck s e.slot x (entLctr e x) e.image.isSome e.descPa.isNone with
  | (.error c, s) => descBad e x c s
  | (.ok pa, s) =>
    let cw := ctxWord s.dev e.slot
    let c : Cell := { cellZero with
      dst := BitVec.ofNat 12 (descDst x), cls := BitVec.ofNat 2 (descClass x), op := 0xA
      ctx := BitVec.ofNat 12 (cw / 16), gen := BitVec.ofNat 4 cw, len := 25
      offset := BitVec.ofNat 35 (descRaddr x / 64), last := true, payload := payloadOf (atomicBytes x pa) }
    let (id, d) := itemNew e x 1 false false false s.dev
    itemSettle id { s with dev := itemSend id c (if descLaddr x = 0 then .none else .bytes pa) d }

/-- NOTIFY (R318). -/
def actNotify (e : DqEnt) (x : BitVec 512) (s : State) : State :=
  match dataCheck s e.slot x (entLctr e x) e.image.isSome e.descPa.isNone with
  | (.error c, s) => descBad e x c s
  | (.ok _, s) =>
    let cw := ctxWord s.dev e.slot
    let c : Cell := { cellZero with
      dst := BitVec.ofNat 12 (descDst x), cls := BitVec.ofNat 2 (descClass x), op := 5
      ctx := BitVec.ofNat 12 (cw / 16), gen := BitVec.ofNat 4 cw
      counter := BitVec.ofNat 12 ((descRctr x).getD 0), last := true }
    let (id, d) := itemNew e x 1 false false false s.dev
    itemSettle id { s with dev := markReady e.src.trk (itemSend id c .none d) }

/-! ### The commands -/

/-- PUT (R319). -/
def execPut (ue : Option Nat) (s : State) : Host.Outcome State Fault Refusal := .next (clocked (nicTake 1 (actPut ue)) s)

/-- GET (R320). -/
def execGet (s : State) : Host.Outcome State Fault Refusal := .next (clocked (nicTake 2 actGet) s)

/-- ATOMIC (R323). -/
def execAtomic (s : State) : Host.Outcome State Fault Refusal := .next (clocked (nicTake 3 actAtomic) s)

/-- NOTIFY_DESCRIPTOR (R318). -/
def execNotifyDescriptor (s : State) : Host.Outcome State Fault Refusal := .next (clocked (nicTake 4 actNotify) s)

/-- CQ_ROOM: held records are written while the ring has room, each before its local increment (R325, R337). -/
def cqDrain : Nat → Nat → State → State
  | 0, _, s => s
  | n + 1, slot, s =>
    match spGet [] s.dev.nic.held slot with
    | [] => s
    | h :: t =>
      let (room, s) := cqRoom s slot
      if !room then s
      else
        let s := { s with dev := { s.dev with nic := { s.dev.nic with held := spPut [] slot t s.dev.nic.held } } }
        let s := writeRecord slot h.record s
        let s := match h.lctr with
          | some (c, e) => ctrUpdates [⟨c, 1, e⟩] s
          | none => s
        cqDrain n slot s

/-- CQ_ROOM (R337). -/
def execCqRoom (slot : Fin 32) (s : State) : Host.Outcome State Fault Refusal :=
  .next (clocked (cqDrain (spGet [] s.dev.nic.held slot.val).length slot.val) s)

/-- COUNTER_UPDATE (R325, R328): an update of a counter of the named context. -/
def execCounterUpdate (ctr : BitVec 12) (ctx : BitVec 16) (o : CtrOp) (s : State) : Host.Outcome State Fault Refusal :=
  .next (match slotOf s.dev ctx.toNat with
    | some n =>
      if ctrOwned s.dev n ctr.toNat then
        clocked (ctrUpdates [match o with
          | .increment => ⟨ctr.toNat, 1, false⟩
          | .errorFlag => ⟨ctr.toNat, 0, true⟩]) s
      else s
    | none => s)

end Sys2Proof.Machine
end

