-- ==== Sys2Proof/Machine/Collective.lean ====
section
/-! DEFINITION. Starting collective operations and supplying contributions (R338, R343 to R345, R348 to R351, R354,
R356). -/

namespace Sys2Proof.Machine

/-! ### Groups and checks (R338, R344) -/

/-- A group as its entry gives it: this module's rank and the nodes in rank order. -/
structure Group where
  rank : Nat
  nodes : List Nat
  deriving DecidableEq, Repr

/-- The 16-bit values of a byte list. -/
def halves : List Byte → List Nat
  | a :: b :: t => (a.toNat + 256 * b.toNat) :: halves t
  | _ => []

/-- A group entry with its list; none where it is bad (R338). -/
def readGroup (slot g : Nat) (s : State) : Option Group × State :=
  let (r, s) := readRange s (fieldN (ctxCfg s.dev slot) 63 16 + 16 * g) 16
  let n := leNat (r.bytes.take 2)
  let rank := leNat ((r.bytes.drop 2).take 2)
  if r.poison || decide (n < 1 ∨ 4095 < n) || decide (n ≤ rank) then (none, s)
  else
    match xlateRange s slot (leNat (r.bytes.drop 8)) (2 * n) false with
    | (.error _, s) => (none, s)
    | (.ok (pa, _), s) =>
      let (q, s) := readRange s pa (2 * n)
      let nodes := halves q.bytes
      if q.poison || nodes[rank]? != some s.dev.rtr.node.toNat then (none, s) else (some ⟨rank, nodes⟩, s)

/-- Fields of a collective descriptor (R343). -/
def cdGroup (x : BitVec 512) : Nat := dField x 2 2 % 4096
def cdResCtr (x : BitVec 512) : Option Nat := if descFlag x 4 then some (dField x 4 2 % 4096) else none
def cdSrc (x : BitVec 512) : Nat := dField x 8 8
def cdDst (x : BitVec 512) : Nat := dField x 16 8
def cdNum (x : BitVec 512) : Nat := dField x 40 1
def cdFan (x : BitVec 512) : Nat := dField x 41 1 % 16
def cdTree (x : BitVec 512) : Bool := dField x 41 1 / 16 % 2 == 1
def cdBf16 (x : BitVec 512) : Bool := dField x 41 1 / 32 % 4 == 1
def cdContrib (x : BitVec 512) : Bool := decide (128 ≤ dField x 41 1)
def cdRoot (x : BitVec 512) : Nat := dField x 42 2
def cdCap (x : BitVec 512) : Nat := dField x 44 4
def cdDeadline (x : BitVec 512) : Nat := dField x 48 8

/-- The send list of an exchange: count and address for each rank (R351). -/
def sendList : Nat → List Byte → List (Nat × Nat)
  | 0, _ => []
  | n + 1, b => (leNat (b.take 4), leNat ((b.drop 8).take 8)) :: sendList n (b.drop 16)

/-- The send list as memory holds it, with the state after the walks. -/
def peekSends (s : State) (slot src n : Nat) : List (Nat × Nat) × State :=
  match xlateRange s slot src (16 * n) false with
  | (.ok (pa, _), s) => (sendList n (peekBytes s pa (16 * n)), s)
  | (.error _, s) => ([], s)

/-- Bytes of the range a start writes: the result, the broadcast's data or the receive area of `n` slots (R343, R352). -/
def dstLen (x : BitVec 512) (n : Nat) : Nat :=
  if descOp x = 0x12 then n * (64 * ceilDiv (16 + 2 * cdCap x) 64 + cdCap x * descLen x) else descLen x

/-- The local ranges a start names: address, length, written, stack or mezzanine only (R343, R344). -/
def startRanges (s : State) (slot : Nat) (x : BitVec 512) (g : Option Group) :
    List (Nat × Nat × Bool × Bool) × State :=
  let len := descLen x
  let n := (g.map (fun g => g.nodes.length)).getD 0
  let root := (g.map (fun g => g.rank == cdRoot x)).getD false
  let dst : Nat × Nat × Bool × Bool := (cdDst x, dstLen x n, true, true)
  match descOp x with
  | 0x10 => (dst :: (if root then [(cdSrc x, len, false, false)] else []), s)
  | 0x11 => (dst ::
      (if cdContrib x then [] else [(cdSrc x, if cdBf16 x then len / 2 else len, false, false)]), s)
  | 0x12 =>
    let (l, s) := peekSends s slot (cdSrc x) n
    let items := l.filter (fun e => decide (0 < e.1 ∧ e.1 ≤ 32768))
    (dst :: (cdSrc x, 16 * n, false, false) :: items.map (fun e => (e.2, e.1 * len, false, false)), s)
  | _ => ([], s)

/-- The lowest of the causes 0x43 to 0x45 over ranges, 0xFF for none, with the state after the walks. -/
def rangesCause (slot : Nat) : List (Nat × Nat × Bool × Bool) → Nat → State → Nat × State
  | [], c, s => (c, s)
  | r :: t, c, s =>
    if r.2.1 = 0 then rangesCause slot t c s
    else match localCause s slot r.1 r.2.1 r.2.2.1 r.2.2.2 with
      | (.error e, s) => rangesCause slot t (min c e) s
      | (.ok _, s) => rangesCause slot t c s

/-- A counter the result uses is not the context's (R321, R325). -/
def resCtrBad (d : Dev) (slot : Nat) (x : BitVec 512) : Bool :=
  match cdResCtr x with
  | some c => !(ctrOwned d slot c)
  | none => false

/-- The lowest cause a start meets, if any (R321, R338, R340, R344); the state is that after the walks. -/
def startCause (s : State) (e : DqEnt) (x : BitVec 512) (g : Option Group) : Option Nat × State :=
  match descFieldCause x e.image.isSome e.descPa.isNone with
  | some c => (some c, s)
  | none =>
    let (l, s) := startRanges s e.slot x g
    let (c, s) := rangesCause e.slot l 0xFF s
    if c ≠ 0xFF then (some c, s)
    else if descCtrBad s.dev e.slot x (entLctr e x) false || resCtrBad s.dev e.slot x then (some 0x46, s)
    else if 256 ≤ s.dev.nic.insts.length then (some 0x48, s)
    else
      match g with
      | none => (some 0x49, s)
      | some g =>
        if g.nodes.length ≤ cdRoot x then (some 0x49, s)
        else if (instFind s.dev (ctxWord s.dev e.slot, cdGroup x, cdNum x)).isSome then (some 0x4A, s)
        else (none, s)

/-! ### The member's own part -/

/-- FP32 values of a chunk of input bytes (R349). -/
def inputVals (bf : Bool) (b : List Byte) : List (BitVec 32) :=
  if bf then (List.range 16).map (fun i => BitVec.ofNat 32 (leNat ((b.drop (2 * i)).take 2) * 2 ^ 16)) else chunkVals b

/-- Own chunks of a reduce, from the first chunk on (R349). -/
def ownChunks (k : CollKey) (me : Nat) (bf : Bool) : Nat → List (List Byte × Bool) → State → State
  | _, [], s => s
  | c, (b, bad) :: t, s => ownChunks k me bf (c + 1) t (reduceArrive k c me (inputVals bf b) bad s)

/-- A range cut into chunks of `n` bytes, each with its poison. -/
def chunksOf (s : State) (pa n : Nat) (bytes : List Byte) : List (List Byte × Bool) :=
  (List.range (ceilDiv bytes.length n)).map (fun c =>
    let b := (bytes.drop (n * c)).take n
    (b, rangeBad s (pa + n * c) b.length))

/-- A local range read by a collective: its bytes and address, with a new uncorrectable error found on the way. -/
def collRead (ue : Option Nat) (k : CollKey) (slot va n : Nat) (s : State) : Nat × List Byte × State :=
  match xlateRange s slot va n false with
  | (.error _, s) => (0, [], s)
  | (.ok (pa, _), s) =>
    let (s, newUe) := meetUe ue pa n s
    let (r, s) := readRange s pa n
    (pa, r.bytes, { s with dev := instMod k (fun y => { y with
      newUe := y.newUe || newUe, poison := y.poison || r.poison }) s.dev })

/-- The root of a broadcast writes its data and sends it to its children (R348). -/
def bcastRoot (k : CollKey) (x : Inst) : Nat → List (List Byte × Bool) → State → State
  | _, [], s => s
  | c, (b, bad) :: t, s =>
    let s := collWrite x.slot (x.dst + 64 * c) b bad s
    bcastRoot k x (c + 1) t { s with dev := bcastForward k c b bad s.dev }

/-- The cells of one rank's items (R351). -/
def sendItems (k : CollKey) (r len : Nat) (chunks : List (List Byte × Bool)) (d : Dev) : Dev :=
  chunks.zipIdx.foldl (fun d p =>
    let per := len / 64
    collSend k r 0x10 (p.2 / per) (p.2 % per) 64 p.1.1 p.1.2 (p.2 + 1 == chunks.length) d) d

/-- The headers and items of an exchange, rank by rank (R351). -/
def xchgSend (ue : Option Nat) (k : CollKey) (x : Inst) : Nat → List (Nat × Nat) → State → State
  | _, [], s => s
  | r, (n, va) :: t, s =>
    let s := { s with dev := collSend k r 0x11 0 0 8 (leBytes 4 n) false (n == 0) s.dev }
    let s := if n = 0 then s
      else
        let (pa, b, s) := collRead ue k x.slot va (n * x.len) s
        { s with dev := sendItems k r x.len (chunksOf s pa 64 b) s.dev }
    xchgSend ue k x (r + 1) t s

/-- What a member does with its own data at the start. -/
def startOwn (ue : Option Nat) (x : Inst) (src : Nat) (s : State) : State :=
  let k := x.key
  match x.kind with
  | .bcast =>
    let s := if x.me = 0 then
        let (pa, b, s) := collRead ue k x.slot src x.len s
        bcastRoot k x 0 (chunksOf s pa 64 b) s
      else s
    { s with dev := instMod k (fun y => { y with ownRead := true }) s.dev }
  | .reduce =>
    if x.contrib then { s with dev := instMod k (fun y => { y with ownRead := true }) s.dev }
    else
      let per := if x.bf16 then 32 else 64
      let (pa, b, s) := collRead ue k x.slot src (x.nchunks * per) s
      let s := { s with dev := instMod k (fun y => { y with ownRead := true }) s.dev }
      ownChunks k x.me x.bf16 0 (chunksOf s pa per b) s
  | .exchange =>
    let (l, s) := peekSends s x.slot src x.size
    let (_, _, s) := collRead ue k x.slot src (16 * x.size) s
    if l.any (fun e => decide (32768 < e.1)) then instAbort x 0xD x.rank 0xFF s
    else
      let s := { s with dev := instMod k (fun y => { y with ownRead := true }) s.dev }
      xchgSend ue k x 0 l s

/-! ### Contributions (R345) -/

/-- A contribution: its bytes and their poison chunk by chunk, the first chunk, and the record that reports it. -/
def contribGive (e : DqEnt) (x : BitVec 512) (y : Inst) (chunks : List (List Byte × Bool)) (newUe : Bool) (s : State) : State :=
  let bad := chunks.any (fun c => c.2)
  let d := instMod y.key (fun z => { z with newUe := z.newUe || newUe, poison := z.poison || bad }) s.dev
  let s := ownChunks y.key y.me y.bf16 (cdDst x / 64) chunks { s with dev := markReady e.src.trk d }
  let st := if newUe then 5 else if bad then 0xA else 0
  instSettle y.key (finishDesc ⟨e.slot, descTag x, st, 0, 0xFF, 7, 0, 0, descFlag x 2, entLctr e x⟩ s)

/-- The image of a send-on-complete contribution. -/
def contribImage (e : DqEnt) : Option (List Byte) := e.image.map (fun l => l.flatMap (fun p => p.bytes))

/-- A contribution's bytes do not fit the operation: no contributions, not whole chunks of it, or a chunk already supplied
(R344, R345). -/
def contribMisfit (e : DqEnt) (x : BitVec 512) (y : Inst) : Bool :=
  let per := if y.bf16 then 32 else 64
  let n := ((contribImage e).map List.length).getD (descLen x)
  let first := cdDst x / 64
  !y.contrib || n = 0 || n % per != 0 || decide (y.nchunks < first + n / per) ||
    (List.range (n / per)).any (fun i => (y.chunk (first + i)).arr.any (fun a => a.1 == y.me))

/-- A contribution to a started operation: the chunks read from its image, or from the physical address of its range
(R345). -/
def contribApply (ue : Option Nat) (e : DqEnt) (x : BitVec 512) (pa : Nat) (y : Inst) (s : State) : State :=
  let per := if y.bf16 then 32 else 64
  if contribMisfit e x y then descBad e x 0x41 s
  else
    match contribImage e with
    | some b =>
      contribGive e x y ((List.range (b.length / per)).map (fun i => ((b.drop (per * i)).take per, false))) false s
    | none =>
      let n := descLen x
      let (s, newUe) := meetUe ue pa n s
      let (r, s) := readRange s pa n
      contribGive e x y (chunksOf s pa per r.bytes) newUe s

/-- The contributions that waited for an operation's start (R345). -/
def contribsFor (k : CollKey) (l : List (DqEnt × Nat)) (d : Dev) : List (DqEnt × Nat) :=
  l.filter (fun w => ctxWord d w.1.slot == k.1 && cdGroup w.1.desc == k.2.1 && cdNum w.1.desc == k.2.2)

def runContribs (k : CollKey) : List (DqEnt × Nat) → State → State
  | [], s => s
  | (e, pa) :: t, s =>
    match instFind s.dev k with
    | some y => runContribs k t (contribApply none e e.desc pa y s)
    | none => runContribs k t (descBad e e.desc 0x41 s)

/-- The checks of a contribution as it is read: its fields, those of a started operation, its range and its counter (R316,
R321, R344, R345); a good one gives the physical address of its range. -/
def contribCheck (s : State) (e : DqEnt) (x : BitVec 512) (y : Option Inst) : Except Nat Nat × State :=
  match descFieldCause x e.image.isSome e.descPa.isNone with
  | some c => (.error c, s)
  | none =>
    if (y.map (contribMisfit e x)).getD false then (.error 0x41, s)
    else
      let (r, s) : Except Nat Nat × State := if e.image.isSome ∨ descLen x = 0 then (.ok 0, s)
        else localCause s e.slot (cdSrc x) (descLen x) false false
      match r with
      | .error c => (.error c, s)
      | .ok pa => (if descCtrBad s.dev e.slot x (entLctr e x) false then .error 0x46 else .ok pa, s)

/-- CONTRIB: checked as it is read; it gives its chunks to a started operation, or waits for the start (R345). -/
def actContrib (ue : Option Nat) (e : DqEnt) (x : BitVec 512) (s : State) : State :=
  let y := instFind s.dev (ctxWord s.dev e.slot, cdGroup x, cdNum x)
  match contribCheck s e x y with
  | (.error c, s) => descBad e x c s
  | (.ok pa, s) =>
    match y with
    | some y => contribApply ue e x pa y s
    | none =>
      { s with dev := { s.dev with nic := { s.dev.nic with
          contribWait := snoc s.dev.nic.contribWait ({ e with desc := x }, pa) } } }

/-! ### The start (R343, R346) -/

/-- The parked cells of an operation, in order of arrival; one that does not belong to it is stale (R339, R346). -/
def runParked (k : CollKey) : List Cell → State → State
  | [], s => s
  | c :: t, s =>
    let (s, ok) := collProcess k c s
    runParked k t { s with dev := cntIf (!ok) (nicBase + 0x980) s.dev }

/-- An operation starts at this member, its result at a physical address. -/
def instStart (ue : Option Nat) (kind : CollKind) (e : DqEnt) (x : BitVec 512) (g : Group) (pa : Nat) (s : State) :
    State :=
  let late := cdDeadline x != 0 && deadlinesSuspended s.dev.tim
  let i : Inst :=
    { slot := e.slot, ctx := ctxWord s.dev e.slot, group := cdGroup x, num := cdNum x, kind := kind, tree := cdTree x
      fan := cdFan x, bf16 := cdBf16 x, contrib := kind == .reduce && cdContrib x, root := cdRoot x, rank := g.rank
      nodes := g.nodes, dst := pa, len := descLen x, cap := cdCap x
      deadline := if late then 0 else cdDeadline x, resCtr := cdResCtr x, lctr := entLctr e x, tag := descTag x
      stamp := descFlag x 2, src := e.src, ownRead := false, got := [], chunks := [], xslots := [], unacked := 0
      confirmed := 0, finishSent := false, finished := [], newUe := false, poison := false, overflow := 0
      finishAt := none }
  let k := i.key
  let d := cntIf late (objCnt 0x303008) (cntInc (nicBase + 0x950) s.dev)
  let parked := d.nic.vest.filter (fun c => collKeyOf c == k)
  let waits := contribsFor k d.nic.contribWait d
  let d := { d with nic := { d.nic with
    insts := snoc d.nic.insts i, doneInst := d.nic.doneInst.filter (fun q => q != k)
    vest := d.nic.vest.filter (fun c => collKeyOf c != k)
    contribWait := d.nic.contribWait.filter (fun w => !(waits.contains w)) } }
  let s := startOwn ue i (cdSrc x) { s with dev := markReady e.src.trk d }
  let s := runContribs k waits (runParked k parked s)
  instSettle k s

/-- A start descriptor: checked, then started with its result range translated (R316, R321, R338, R343). -/
def actStart (ue : Option Nat) (kind : CollKind) (e : DqEnt) (x : BitVec 512) (s : State) : State :=
  let (g, s) := readGroup e.slot (cdGroup x) s
  match startCause s e x g, g with
  | (some c, s), _ => descBad e x c s
  | (none, s), none => descBad e x 0x49 s
  | (none, s), some g =>
    match localCause s e.slot (cdDst x) (dstLen x g.nodes.length) true true with
    | (.error c, s) => descBad e x c s
    | (.ok pa, s) => instStart ue kind e x g pa s

/-! ### Deadlines (R45, R356) -/

/-- The operations whose deadline tick the count has reached and whose part is not finished. -/
def lateInsts (d : Dev) : List Inst :=
  if deadlinesSuspended d.tim then []
  else d.nic.insts.filter (fun x =>
    x.deadline != 0 && decide (ceilDiv x.deadline 64 * 64 ≤ d.tim.count.toNat) && !x.partDone && !x.finishSent)

/-- Each of a list of late operations aborts (R356). -/
def abortLate : List CollKey → State → State
  | [], s => s
  | k :: t, s =>
    match instFind s.dev k with
    | some x => abortLate t (instLate x s)
    | none => abortLate t s

/-! ### The commands -/

/-- BCAST (R348). -/
def execBcast (ue : Option Nat) (s : State) : Host.Outcome State Fault Refusal :=
  .next (clocked (nicTake 0x10 (actStart ue .bcast)) s)

/-- REDUCE (R349). -/
def execReduce (ue : Option Nat) (s : State) : Host.Outcome State Fault Refusal :=
  .next (clocked (nicTake 0x11 (actStart ue .reduce)) s)

/-- EXCHANGE (R351). -/
def execExchange (ue : Option Nat) (s : State) : Host.Outcome State Fault Refusal :=
  .next (clocked (nicTake 0x12 (actStart ue .exchange)) s)

/-- CONTRIB (R345). -/
def execContrib (ue : Option Nat) (s : State) : Host.Outcome State Fault Refusal :=
  .next (clocked (nicTake 0x13 (actContrib ue)) s)

/-- DEADLINE_REACHED: the next 64 ns tick of the count, with the deadlines it reaches (R45, R356). -/
def execDeadlineReached (s : State) : Host.Outcome State Fault Refusal :=
  let s := { s with dev := advanceWindow 64 s.dev }
  .next (clocked (abortLate ((lateInsts s.dev).map Inst.key)) s)

/-- The moment at which a member with a finished part gives up: item_timeout_us after the deadline, or after it finished
its part where there is none (R354; log entry 4). -/
def doneDue (x : Inst) (d : Dev) : Dev :=
  let wait := objGet d 0x450001 * 1000
  if x.deadline ≠ 0 then advanceCount (x.deadline + wait - d.tim.count.toNat) d
  else advanceTo (x.finishAt.getD d.tim.now + wait) d

/-- COLL_DONE_TIMEOUT: a member with a finished part completes with timeout, DONE and ABORT having stayed away (R354). -/
def execCollDoneTimeout (ctx : BitVec 16) (group : BitVec 12) (num : BitVec 8) (s : State) :
    Host.Outcome State Fault Refusal :=
  .next (match instFind s.dev (ctx.toNat, group.toNat, num.toNat) with
    | some x =>
      if x.finishSent || (x.rank == x.root && x.partDone) then clocked (fun s => instEnd x 7 0xFF 0 (onDev (doneDue x) s)) s
      else s
    | none => s)

end Sys2Proof.Machine
end

