-- ==== Sys2Proof/Machine/Recover.lean ====
section
/-! DEFINITION. Ending work in progress: trackers and jobs that fail with aborted, kernels and transfers that end with a
forced status, and a core reset's effect on the compute (R408, R421, R448, R456, R550, R553). -/

namespace Sys2Proof.Machine

/-- The place of a status in the order of R550. -/
def statusRank (st : Nat) : Nat := ([6, 5, 4, 1, 2, 3, 8, 7, 9, 0].findIdx? (· == st)).getD 10

/-- The status that is reported of two (R550). -/
def statusMin (a : Option Nat) (b : Nat) : Option Nat :=
  match a with
  | some x => if statusRank x ≤ statusRank b then some x else some b
  | none => some b

/-- Every ring index that a predicate on context slots selects. -/
def ringsOf (p : Nat → Bool) : List (Nat × Nat) :=
  ((List.range 32).filter p).flatMap (fun n => (List.range 8).map (fun r => (n, r)))

/-- What runs on the selected slots ends with a status: kernels abort, transfers stop (R104, R553). -/
def forceRuns (p : Nat → Bool) (st : Nat) (d : Dev) : Dev :=
  (ringsOf p).foldl (fun d nr =>
    match (ringGet d nr.1 nr.2).run with
    | none => d
    | some k =>
      let d := ringPut nr.1 nr.2 { ringGet d nr.1 nr.2 with run := some { k with forced := statusMin k.forced st } } d
      k.landings.foldl (fun d m => lndMod m stopLanding d) d) d

/-- A tracker ends with cause aborted (R209, R457): poison, record, counter; a window load or store
counts as failed. -/
def abortTracker (l : Nat) (t : Tracker) (s : State) : State :=
  let s := failOp l t 0x09 0 s
  let win := match t.op with
    | .st pa _ _ => tierWindow (tierOf pa)
    | .vst pa _ _ _ => tierWindow (tierOf pa)
    | .ld _ _ pa _ _ => tierWindow (tierOf pa)
    | .vld _ pa _ _ _ _ => tierWindow (tierOf pa)
    | _ => false
  let s := onDev (cntIf win (memBase + 0x478)) s
  let s := dropTracker l t.id (onDev (dropJob l t.id) s)
  match t.notify with
  | some c => if notifiesAtRetire t.op then ctrUpdates [⟨c, 1, true⟩] s else s
  | none => s

/-- Every tracker of a landing ends. -/
def abortTrackers (l : Nat) (s : State) : State :=
  (lndGet s.dev l).trk.foldl (fun s t => abortTracker l t s) s

/-- Every tracker of the landings whose kernel a predicate on its context selects. -/
def abortWork (p : Nat → Bool) (s : State) : State :=
  (List.range 104).foldl (fun s l => if p (lndGet s.dev l).kern.ctx then abortTrackers l s else s) s

/-- A landing after reset; its tracker numbers go on. -/
def freshLanding (x : Landing) : Landing := { Landing.reset with trkNext := x.trkNext }

/-- Every landing reset. -/
def resetLandings (d : Dev) : Dev :=
  (List.range 104).foldl (fun d l => lndMod l freshLanding d) d

/-- A gallery after reset: its sensors are read on, and its clock never rises at once (R367, R389, R408). -/
def freshGallery (x : Gal) : Gal :=
  { Gal.reset with tj := x.tj, sensorFault := x.sensorFault, clk := min Gal.reset.clk x.clk }

/-- Every gallery reset. -/
def resetGalleries (d : Dev) : Dev :=
  { d with pwr := { d.pwr with gal := d.pwr.gal.foldl (fun m e => spPut Gal.reset e.1 (freshGallery e.2) m) [] } }

/-- The LND_, FLT_ and GAL_ counters and their latches cleared (R56, R111, R144, R167, R408). -/
def clearCoreCounters (d : Dev) : Dev :=
  let d := cntClear 0x400000 0x600000 (cntClear 0x200000 0x300000 d)
  { d with hif := { d.hif with
      latch := spErase (fun k => decide ((0x200000 ≤ k ∧ k < 0x300000) ∨ (0x400000 ≤ k ∧ k < 0x600000))) d.hif.latch } }

/-- Zero fill in progress ends, and the report says so; the model fills at its end, so no byte was written (R460; log
entry 21). -/
def endZeroFill (d : Dev) : Dev :=
  if d.health.fills.isEmpty then d
  else
    let rep := if d.health.report.result = 2 then { d.health.report with result := 4 } else d.health.report
    { d with health := { d.health with fills := [], report := rep } }

/-- A core reset from its acceptance to the release of the landings (R421 steps 1 to 5): work ends with aborted, runs
end with core_reset, landings, engines and their counters are reset, every store is cold. -/
def coreResetNow (bit : Nat) (s : State) : State :=
  let d := { s.dev with rst := { s.dev.rst with cause := setField s.dev.rst.cause bit 1 1, coreBusy := true, hangPending := false } }
  let d := emit 0x6004 0 2 (cntInc (rstBase + 0x218) (endZeroFill d))
  let d := forceRuns (fun _ => true) 0x05 d
  let s := abortWork (fun _ => true) { s with dev := d }
  let s := coldAll s
  let d := clearCoreCounters (resetGalleries (resetLandings s.dev))
  { s with dev := { d with memc := { d.memc with
      gated := [], gateKeep := [], strQ := [], strRun := [], upkQ := [], upkRun := [], topQ := [], topRun := [] } } }

end Sys2Proof.Machine
end

