-- ==== Sys2Proof/Machine/HostBase.lean ====
section
/-! DEFINITION. Completion entries, forced ends of launched work, and the reset of the host interface (R413, R549 to
R553). -/

namespace Sys2Proof.Machine

/-! ### Launch descriptors (R544) -/

/-- A little-endian field of a launch descriptor: `n` bytes from byte `i`. -/
def lField (x : BitVec 1024) (i n : Nat) : Nat := fieldN x (8 * (i + n) - 1) (8 * i)

def lKind (x : BitVec 1024) : Nat := lField x 0 1

/-- lq_log2 and msix of a ring (R542). -/
def ringLog (r : Ring) : Nat := fieldN r.cfg 3 0
def ringVec (r : Ring) : Nat := fieldN r.cfg 26 16
def ringOn (r : Ring) : Bool := r.cfg.getLsbD 31

/-! ### Completion entries (R549 to R551) -/

/-- What an entry reports. -/
structure CplInfo where
  status : Nat
  cause : Nat
  rank : Nat
  exit : Nat
  energy : Nat
  deriving DecidableEq, Repr

/-- The 32 bytes of the entry of descriptor `idx` of a ring (R549). -/
def entryBytes (d : Dev) (ring : Nat) (r : Ring) (idx : W32) (desc : BitVec 1024) (x : CplInfo) : List Byte :=
  let stamp := desc.getLsbD 8
  let phase := (idx.toNat / 2 ^ ringLog r + 1) % 2
  leBytes 8 (lField desc 8 8) ++ leBytes 8 (if stamp then d.tim.count.toNat else 0) ++
    leBytes 4 (min x.energy (2 ^ 32 - 1)) ++ leBytes 4 (ring * 2 ^ 29 + idx.toNat % 2 ^ 29) ++ leBytes 4 x.exit ++
    leBytes 1 x.rank ++ leBytes 1 x.cause ++ leBytes 1 x.status ++
    leBytes 1 (timeQuality d.tim + 8 * b2n stamp + 16 * (lKind desc % 4) + 128 * phase)

/-- An entry written to the completion ring, with its interrupt (R551). -/
def writeEntry (slot ring : Nat) (idx : W32) (desc : BitVec 1024) (x : CplInfo) (d : Dev) : Dev :=
  let r := ringGet d slot ring
  let a := r.cqBase + BitVec.ofNat 64 (32 * (idx.toNat % 2 ^ ringLog r))
  let b := entryBytes d ring r idx desc x
  let d := ringPut slot ring { r with prod := idx + 1 } d
  let d := cntInc (hifBase + 0x420) { d with hif := { d.hif with out := snoc d.hif.out (.write a b false) } }
  if desc.getLsbD 9 then fireVec (ringVec r) d else d

/-- Status and cause of what a ring ran, the first of R550 that applies. -/
def runStatus (k : Running) : Nat × Nat :=
  match k.forced, k.fault with
  | some f, _ => (f, 0)
  | none, some (_, c) => (1, c)
  | none, none =>
    if k.failed then (8, 2) else if k.windowFail then (7, 0) else if k.poison then (9, 0) else (0, 0)

/-- Rank of the first landing to fault (R549). -/
def runRank (k : Running) : Nat :=
  match k.fault with
  | some (r, _) => r
  | none => 0xFF

/-- The entry of lower rank. -/
def lowerRank (a b : Nat × W32) : Nat × W32 := if a.1 ≤ b.1 then a else b

/-- The exit code of the lowest-ranked landing whose code is not 0 (R102). -/
def runExit (d : Dev) (k : Running) : Nat :=
  let codes := k.left ++ k.landings.map (fun l => ((lndGet d l).kern.rank, (lndGet d l).kern.exitCode))
  match codes.filter (fun e => e.2 != 0) with
  | [] => 0
  | a :: t => (t.foldl lowerRank a).2.toNat

/-- A ring's running item ends with its entry, or without one where a host-interface reset discarded it (R551, R553). -/
def finishRun (slot ring : Nat) (k : Running) (energy : Nat) (d : Dev) : Dev :=
  let (st, c) := runStatus k
  let kern := lKind k.desc == 0
  let d := if k.noEntry then cntInc (hifBase + 0x428) d
    else writeEntry slot ring k.idx k.desc
      ⟨st, c, if kern then runRank k else 0xFF, if kern then runExit d k else 0, if kern then energy else 0⟩ d
  ringPut slot ring { ringGet d slot ring with run := none } d

/-- The front of a ring with nothing running: descriptors that failed a check receive their entries at once in ring
order, and the first that may start becomes ready (R545, R546); `n` bounds the descriptors fetched. -/
def flushFront (slot ring : Nat) : Nat → Dev → Dev
  | 0, d => d
  | n + 1, d =>
    let r := ringGet d slot ring
    if r.run.isSome then d
    else
      match r.fetched with
      | [] => d
      | x :: t =>
        match x.verdict with
        | some (st, c) =>
          let d := writeEntry slot ring x.idx x.desc ⟨st, c, 0xFF, 0, 0⟩ d
          flushFront slot ring n (ringPut slot ring { ringGet d slot ring with fetched := t } d)
        | none =>
          if x.ready ≠ 0 then d
          else
            let k := d.hif.readyNext + 1
            ringPut slot ring { r with fetched := { x with ready := k } :: t }
              { d with hif := { d.hif with readyNext := k } }

def flushRing (slot ring : Nat) (d : Dev) : Dev := flushFront slot ring ((ringGet d slot ring).fetched.length) d

/-- What a ring runs and what it has fetched end with entries of one status, in ring order (R456, R553, R454); the
energy of a started kernel is as metered, a value the model does not have. -/
def endRing (slot ring st : Nat) (d : Dev) : Dev :=
  let r := ringGet d slot ring
  let d := match r.run with
    | none => d
    | some k =>
      let (e, d) := drawFree d
      finishRun slot ring { k with forced := statusMin k.forced st } (e.toNat % 2 ^ 32) d
  let d := r.fetched.foldl (fun d x =>
    let n := match x.verdict with
      | some (v, _) => (statusMin (some v) st).getD st
      | none => st
    writeEntry slot ring x.idx x.desc ⟨n, 0, 0xFF, 0, 0⟩ d) d
  ringPut slot ring { ringGet d slot ring with fetched := [], run := none } d

/-- Every ring of the selected slots. -/
def endRings (p : Nat → Bool) (st : Nat) (d : Dev) : Dev :=
  (ringsOf p).foldl (fun d nr => endRing nr.1 nr.2 st d) d

/-- The rings of a slot disabled (R553). -/
def disableRings (slot : Nat) (d : Dev) : Dev :=
  (List.range 8).foldl (fun d r => ringPut slot r { ringGet d slot r with cfg := setField (ringGet d slot r).cfg 31 1 0 } d) d

/-! ### The reset of the host interface (R413, R553) -/

/-- The endpoint and every HIF_ register at reset; what was sent stays sent, and the latches of the other blocks stay
(R56). -/
def hifClear (d : Dev) : Dev :=
  let d := cntClear hifBase 0x10000 (regClear hifBase 0x10000 d)
  { d with hif := { Hif.reset with out := d.hif.out, latch := spErase (fun k => decide (k < 0x10000)) d.hif.latch } }

/-- A ring after the reset: a kernel goes on without an entry; everything else is gone. -/
def ringAfterReset (r : Ring) : Ring :=
  { ringDefault with run := r.run.bind (fun k => if lKind k.desc = 0 then some { k with noEntry := true } else none) }

/-- A transfer to the module ended by the reset leaves poison in the granules it has not written (R553). -/
def dmaPoison (slot : Nat) (k : Running) (s : State) : State :=
  if lKind k.desc = 1 then
    let n := lField k.desc 32 4
    match xlateRange s slot (lField k.desc 24 8) n true with
    | (.ok (pa, _), s) => poisonRange (pa + k.moved) (n - k.moved) (some slot) s
    | (.error _, s) => s
  else s

/-- The transfers that run end (R553). -/
def endTransfers (s : State) : State :=
  (ringsOf (fun _ => true)).foldl (fun s nr =>
    match (ringGet s.dev nr.1 nr.2).run with
    | some k => dmaPoison nr.1 k s
    | none => s) s

/-- The number of transfers and markers that run. -/
def transfersRun (d : Dev) : Nat :=
  ((ringsOf (fun _ => true)).filter (fun nr =>
    match (ringGet d nr.1 nr.2).run with
    | some k => lKind k.desc != 0
    | none => false)).length

/-- A host-interface-only reset (R413, R533, R553). -/
def hifReset (s : State) : State :=
  let s := endTransfers s
  let d := s.dev
  let rings : Sparse Ring := d.hif.rings.foldl (fun m e => spPut ringDefault e.1 (ringAfterReset e.2) m) []
  let n := transfersRun d
  let d := hifClear d
  let d := { d with hif := { d.hif with rings := rings } }
  { s with dev := cntAdd (hifBase + 0x428) n (cntInc (rstBase + 0x228) d) }

end Sys2Proof.Machine
end

