-- ==== Sys2Proof/Machine/Codeword.lean ====
section
/-! DEFINITION. What a port's lanes carry: units, their RS(544,514) codewords, training frames and PAM4 levels (R274 to
R278, R284). -/

namespace Sys2Proof.Machine

/-! ### Slots and units (R275, R276, R278) -/

/-- The 80 bytes of a slot (R237, R275, R278). -/
def slotBytes : USlot → List Byte
  | .cell c => leBytes 16 (cellHeader c).toNat ++ leBytes 64 c.payload.toNat
  | .link ty rest p => leBytes 16 ((0xFFF : BitVec 12) ++ ty ++ rest).toNat ++ leBytes 64 p.toNat

/-- A slot with nothing to carry (R278). -/
def idleSlot : USlot := .link 0 0 0

/-- The 32 slots of a unit: what it carries, then IDLE slots (R278). -/
def fillSlots (l : List USlot) : List USlot := l.take 32 ++ List.replicate (32 - l.length) idleSlot

/-- The check sum of a unit: its slots, then bits [79:32] of the unit field (R276). -/
def slotsCrc (slots : List USlot) (useq ack nak : BitVec 16) : W32 :=
  crc32 (slots.flatMap slotBytes ++ leBytes 6 ((useq ++ ack ++ nak).toNat))

/-- The check sum that a unit should carry. -/
def unitCrc (u : UnitIn) : W32 := slotsCrc u.slots u.useq u.ack u.nak

/-- A unit formed from what it carries (R276, R278). -/
def formUnit (useq ack nak : BitVec 16) (l : List USlot) : SentUnit :=
  ⟨useq, ack, nak, slotsCrc (fillSlots l) useq ack nak, fillSlots l⟩

/-- The unit field (R276). -/
def unitField (u : SentUnit) : BitVec 80 := u.useq ++ u.ack ++ u.nak ++ u.crc

/-! ### RS(544,514) over GF(2^10) (R274; log entry 93) -/

/-- Multiplication by x in GF(2^10), modulo x^10 + x^3 + 1. -/
def gfDouble (a : BitVec 10) : BitVec 10 := (a <<< 1) ^^^ (if a.getLsbD 9 then 9 else 0)

/-- Multiplication in GF(2^10), from the highest bit of the second factor. -/
def gfMul (a b : BitVec 10) : BitVec 10 :=
  (List.range 10).foldl (fun r i => gfDouble r ^^^ (if b.getLsbD (9 - i) then a else 0)) 0

/-- A power of the primitive element. -/
def gfPow : Nat → BitVec 10
  | 0 => 1
  | n + 1 => gfDouble (gfPow n)

/-- A polynomial, highest power first, times x plus a constant. -/
def polyTimes (p : List (BitVec 10)) (r : BitVec 10) : List (BitVec 10) :=
  List.zipWith (· ^^^ ·) (p ++ [0]) (0 :: p.map (fun a => gfMul a r))

/-- The generator polynomial, the product of x + 2^j for j from 0 to 29, highest power first. -/
def rsGenerator : List (BitVec 10) := (List.range 30).foldl (fun p j => polyTimes p (gfPow j)) [1]

/-- One step of the division by the generator: the remainder so far, highest power first, and the next data symbol. -/
def rsStep (rem : List (BitVec 10)) (s : BitVec 10) : List (BitVec 10) :=
  let f := rem.headD 0 ^^^ s
  List.zipWith (fun a g => a ^^^ gfMul f g) (rem.drop 1 ++ [0]) (rsGenerator.drop 1)

/-- The 30 parity symbols of the data symbols. -/
def rsParity (data : List (BitVec 10)) : List (BitVec 10) := data.foldl rsStep (List.replicate 30 0)

/-- The 544 symbols of a codeword. -/
def rsCodeword (data : List (BitVec 10)) : List (BitVec 10) := data ++ rsParity data

/-! ### The codewords of a unit (R274 to R276) -/

/-- The 514 data symbols of codeword `c`: slots 8c to 8c + 7, then bits [20c + 19 : 20c] of the unit field, from bit 0 of
symbol 0 on. -/
def dataSymbols (u : SentUnit) (c : Nat) : List (BitVec 10) :=
  let bytes := ((u.slots.drop (8 * c)).take 8).flatMap slotBytes
  let bits := leNat bytes + fieldN (unitField u) (20 * c + 19) (20 * c) * 2 ^ 5120
  (List.range 514).map (fun i => BitVec.ofNat 10 (bits / 2 ^ (10 * i)))

/-- A codeword's 5,440 bits, symbol 0 first and each symbol from its bit 0. -/
def symbolBits (l : List (BitVec 10)) : List Bool := l.flatMap (fun s => (List.range 10).map (fun i => s.getLsbD i))

/-- The level of two consecutive bits: the earlier is the less significant one of a Gray-coded pair (R274). -/
def pamLevel (earlier later : Bool) : BitVec 2 :=
  match later, earlier with
  | false, false => 0
  | false, true => 1
  | true, true => 2
  | true, false => 3

/-- The PAM4 levels of a run of bits. -/
def pamLevels : List Bool → List (BitVec 2)
  | a :: b :: t => pamLevel a b :: pamLevels t
  | _ => []

/-- What the lanes carry for a unit: codeword c goes on the lane of its place in the port's stream, lowest active lane
first (R276). -/
def unitLine (active : List Nat) (phase : Nat) (u : SentUnit) : List (Nat × List (BitVec 2)) :=
  (List.range 4).map (fun c =>
    (active[(phase + c) % max 1 active.length]?.getD 0, pamLevels (symbolBits (rsCodeword (dataSymbols u c)))))

/-! ### Training frames (R284; log entry 89) -/

/-- One step of the PRBS13 generator 1 + x + x^2 + x^12 + x^13. -/
def prbsStep (s : BitVec 13) : BitVec 13 :=
  (s <<< 1) ||| (BitVec.ofBool (s.getLsbD 12 ^^ s.getLsbD 11 ^^ s.getLsbD 1 ^^ s.getLsbD 0)).setWidth 13

/-- `n` bits of PRBS13 from a state. -/
def prbsBits : Nat → BitVec 13 → List Bool
  | 0, _ => []
  | n + 1, s => s.getLsbD 12 :: prbsBits n (prbsStep s)

/-- The low `n` bits of a number, bit 0 first. -/
def lowBits (n x : Nat) : List Bool := (List.range n).map (fun i => x.testBit i)

/-- A tap request of a frame that is sent: 0 to 2 (R284). -/
def sentReq (x : Nat) : Nat := x % 3

/-- The 5,440 bits of the frame a lane sends: the requests of its own receiver, which the spec leaves to it, as bits of a
free value; the answers to the partner's last requests; rx_ready once the lane is ready, and before as its receiver finds;
the pattern from its start. -/
def frameBits (free : W64) (lane : Nat) (y : Lane) : List Bool :=
  let f := free.toNat
  let head := 0x7E61B3C8 + sentReq (f % 16) * 2 ^ 32 + sentReq (f / 16 % 16) * 2 ^ 34 + sentReq (f / 256 % 16) * 2 ^ 36 +
    (f / 2 ^ 12 % 8) * 2 ^ 38 + (f / 2 ^ 15 % 2) * 2 ^ 41 + y.pre2St.toNat * 2 ^ 48 + y.pre1St.toNat * 2 ^ 50 +
    y.post1St.toNat * 2 ^ 52 + b2n (y.ready || free.getLsbD 16) * 2 ^ 63
  lowBits 64 head ++ prbsBits 5376 (Config.prbsSeed lane)

end Sys2Proof.Machine
end

