-- ==== Sys2Proof/Machine/NicRx.lean ====
section
/-! DEFINITION. Cells that arrive at the NIC: the checks of the destination, what each op does, and the answers (R240,
R242 to R245, R254, R255, R259, R260, R263, R298, R323 to R326, R346, R347, R472, R478, R485). -/

namespace Sys2Proof.Machine

/-! ### Notices and acknowledgements (R244, R253, R254) -/

/-- The notice made of a cell (R253); one of an Express cell travels in class 2. -/
def noticeOf (cause : Nat) (c : Cell) : Cell :=
  { c with dst := c.src, src := c.dst, bounce := true, hops := 63, len := BitVec.ofNat 6 cause, payload := 0
           cls := if c.cls = 0 then 2 else c.cls }

/-- The destination NIC bounces a cell (R254, R259). -/
def rxBounce (cause : Nat) (c : Cell) (d : Dev) : Dev := injectCell (noticeOf cause c) d

/-- The ACK of a buffer entry (R244). -/
def ackCell (e : AckEnt) : Cell :=
  { cellZero with
    dst := BitVec.ofNat 12 e.src, cls := BitVec.ofNat 2 e.cls, op := 0xC, ctx := BitVec.ofNat 12 e.ctx
    gen := BitVec.ofNat 4 e.gen, len := BitVec.ofNat 6 (2 * e.seqs.length + 1)
    payload := payloadOf (leBytes 2 e.seqs.length ++ e.seqs.flatMap (fun q => leBytes 2 q)) }

/-- An entry's ACK is sent and its place freed (R244). -/
def ackSend (e : AckEnt) (d : Dev) : Dev :=
  sendAnswer (ackCell e) (cntInc (nicBase + 0x810)
    { d with nic := { d.nic with acks := d.nic.acks.filter (fun x => x != e) } })

/-- Flows of the ACK buffer (R244). -/
def ackCap : Nat := 4096

/-- A cell has been applied: its sequence number joins its flow's entry, and the ACK goes when it is due (R244, R296). -/
def ackAdd (c : Cell) (d : Dev) : Dev :=
  let cls := if c.cls = 0 then 2 else c.cls.toNat
  let same (e : AckEnt) : Bool := e.src == c.src.toNat && e.ctx == c.ctx.toNat && e.gen == c.gen.toNat && e.cls == cls
  let most := if k3Node d c.src.toNat then 29 else 31
  let d := match d.nic.acks.find? same, d.nic.acks with
    | none, old :: _ => if ackCap ≤ d.nic.acks.length then ackSend old d else d
    | _, _ => d
  let e : AckEnt := (d.nic.acks.find? same).getD ⟨c.src.toNat, c.ctx.toNat, c.gen.toNat, cls, []⟩
  let e' := { e with seqs := snoc e.seqs c.seq.toNat }
  let acks := if d.nic.acks.any same then d.nic.acks.map (fun x => if same x then e' else x) else snoc d.nic.acks e'
  let d := { d with nic := { d.nic with acks := acks } }
  if c.last || decide (most ≤ e'.seqs.length) then ackSend e' d else d

/-! ### Filters and counts of arrival (R245, R263, R298) -/

/-- The name of a cell in the filters. -/
def cellName (c : Cell) : Nat × Nat × Nat × Nat := (c.src.toNat, c.ctx.toNat, c.gen.toNat, c.seq.toNat)

/-- An Express cell is counted in its window; from the 17th on it is one too many (R263). -/
def expArrive (c : Cell) (d : Dev) : Dev :=
  if c.cls ≠ 0 then d
  else
    let d := { d with nic := { d.nic with expIn := d.nic.expIn + 1 } }
    if d.nic.expIn ≤ 16 then d
    else
      let d := cntInc (nicBase + 0x890) d
      if d.kmd.overSent then d
      else emit 0x4004 0 (BitVec.ofNat 64 (d.tim.count.toNat / 1024)) { d with kmd := { d.kmd with overSent := true } }

/-- A cell comes out of the router's NIC port. -/
def rxTake (c : Cell) (d : Dev) : Dev :=
  let d := cntInc (nicBase + 0x808) { d with rtr := { d.rtr with toNic := d.rtr.toNic.erase c } }
  expArrive c d

/-- The filters remember an applied cell (R245, R298). -/
def rxRemember (c : Cell) (d : Dev) : Dev :=
  let d := if c.cls = 0 then
      { d with nic := { d.nic with expFilter := (cellName c :: d.nic.expFilter).take 1024 } } else d
  if c.k3 then { d with ports := { d.ports with k3Filter := (cellName c :: d.ports.k3Filter).take 4096 } } else d

/-- What the checks before the application decide. -/
inductive RxVerdict where
  | drop (d : Dev)
  | go (slot : Nat) (d : Dev)

/-- The ops that bounce from an inactive context (R259). -/
def opBounces (op : Nat) : Bool := decide ((1 ≤ op ∧ op ≤ 0xA) ∨ (0x10 ≤ op ∧ op ≤ 0x12))

/-- The check of a k3 cell's CRC and of the K3 filter (R298); none lets the cell go on. -/
def k3Check (c : Cell) (d : Dev) : Option Dev :=
  if !c.k3 || c.bounce then none
  else if fieldN c.payload 511 480 != (k3Crc { c with payload := setField c.payload 480 32 0 }).toNat then
    some (cntInc (nicBase + 0x8A0) d)
  else if c.replay && d.ports.k3Filter.contains (cellName c) then some (ackAdd c (cntInc (nicBase + 0x870) d))
  else none

/-- Checks 2 to 4 of R259 for an op. -/
def rxCheck (c : Cell) (d : Dev) : RxVerdict :=
  match k3Check c d with
  | some d => .drop d
  | none =>
    match (slotOfId d c.ctx.toNat).filter (fun n => !(scrubbing d n)) with
    | none =>
      let d := cntInc (nicBase + 0x858) d
      .drop (if opBounces c.op.toNat then rxBounce 3 c d else d)
    | some n =>
      if ctxWord d n % 16 ≠ c.gen.toNat then .drop (cntInc (nicBase + 0x850) d)
      else if c.replay && d.nic.expFilter.contains (cellName c) then .drop (cntInc (nicBase + 0x870) d)
      else .go n d

/-- Check 5 fails (R259). -/
def rxInvalid (c : Cell) (d : Dev) : Dev := rxBounce 2 c (cntInc (nicBase + 0x860) d)

/-- The receive apertures of a slot allow an access (R260). -/
def aperture (d : Dev) (slot pa : Nat) (wr : Bool) : Bool :=
  (List.range 8).any (fun k =>
    let a := regGet d (nicBase + 0x4000 + 0x100 * slot + 16 * k)
    let b := regGet d (nicBase + 0x4000 + 0x100 * slot + 16 * k + 8)
    let u := pa / 2 ^ 21
    a.getLsbD 63 && (!wr || a.getLsbD 62) && decide (fieldN b 40 21 ≤ u ∧ u ≤ fieldN a 40 21))

/-- A range of one granule may be reached by a cell of a slot (R259, R260). -/
def rxRange (d : Dev) (slot : Nat) (c : Cell) (p n : Nat) (wr : Bool) : Option Nat :=
  let g := 64 * c.offset.toNat
  if p + n ≤ 64 ∧ (aperture d slot g wr && (keyOf d g).isSome) = true then some (g + p) else none

/-- A counter an arriving cell may name (R326). -/
def rxCtr (d : Dev) (slot : Nat) (c : Cell) : Bool := ctrOwned d slot c.counter.toNat

/-! ### Writes and notifications (R240, R244, R325) -/

/-- An applied cell's poison is counted (R259). -/
def rxPoison (c : Cell) (d : Dev) : Dev := cntIf c.poison (nicBase + 0x878) d

/-- A cell has been applied: poison counted, filters, acknowledgement. -/
def rxApplied (c : Cell) (d : Dev) : Dev := ackAdd c (rxRemember c (rxPoison c d))

/-- A write op: bytes at position `p`, with the counter of a counted form (R240, R325). -/
def rxWrite (counted part : Bool) (c : Cell) (s : State) : State :=
  match rxCheck c (rxTake c s.dev) with
  | .drop d => { s with dev := d }
  | .go slot d =>
    let p := if part then (payByte c (posByte c)).toNat else 0
    let n := c.len.toNat + 1
    match rxRange d slot c p n true with
    | none => { s with dev := rxInvalid c d }
    | some pa =>
      if counted && !(rxCtr d slot c) then { s with dev := rxInvalid c d }
      else
        let s := writeBytes pa ((payBytes c 0 n).map some) c.poison (some slot) { s with dev := d }
        let s := if counted then ctrUpdates [⟨c.counter.toNat, 1, c.poison⟩] s else s
        { s with dev := rxApplied c s.dev }

/-- A NOTIFY: an increment, or with poison the error flag alone (R325, R327). -/
def rxNotify (c : Cell) (s : State) : State :=
  match rxCheck c (rxTake c s.dev) with
  | .drop d => { s with dev := d }
  | .go slot d =>
    if !(rxCtr d slot c) then { s with dev := rxInvalid c d }
    else
      let s := ctrUpdates [if c.poison then ⟨c.counter.toNat, 0, true⟩ else ⟨c.counter.toNat, 1, false⟩] { s with dev := d }
      { s with dev := rxApplied c s.dev }

/-! ### Gets and atomics (R240, R320, R323, R324) -/

/-- An answer to a request: class, context and sequence number are the request's (R241, R242). -/
def answerOf (c : Cell) (op n : Nat) (bytes : List Byte) (poison : Bool) (ret : Nat) : Cell :=
  { cellZero with
    dst := c.src, cls := c.cls, op := BitVec.ofNat 6 op, ctx := c.ctx, gen := c.gen, seq := c.seq
    len := BitVec.ofNat 6 (n - 1), offset := BitVec.ofNat 35 ret, poison := poison, payload := payloadOf bytes }

/-- A GET_REQ (R240, R320). -/
def rxGet (c : Cell) (s : State) : State :=
  match rxCheck c (rxTake c s.dev) with
  | .drop d => { s with dev := d }
  | .go slot d =>
    let n := c.len.toNat + 1
    match rxRange d slot c (payNat c 5 1) n false with
    | none => { s with dev := rxInvalid c d }
    | some pa =>
      let (st, b, s) := readGran { s with dev := rxRemember c (rxPoison c d) } pa
      let a := answerOf c 9 n ((b.drop (pa % 64)).take n) (decide (st ≠ .ok)) (payNat c 0 5)
      { s with dev := sendAnswer a s.dev }

/-- The new value of an atomic's element (R323). -/
def atomicNew (fn ty old opnd cmp : Nat) : Nat :=
  match fn with
  | 0 => (old + opnd) % 2 ^ 64
  | 1 => old &&& opnd
  | 2 => old ||| opnd
  | 3 => opnd
  | 4 => if old = cmp then opnd else old
  | _ => if ty = 1 then fAdd fp32 .nearest old (opnd % 2 ^ 32) else fAdd bf16 .nearest old (opnd % 2 ^ 16)

/-- An atomic applied: one read and one write of its element, and the old value as the answer; a poisoned element is
left alone (R218, R323, R324). -/
def atomicApply (slot pa : Nat) (c : Cell) (s : State) : State :=
  let fn := payNat c 16 1
  let ty := payNat c 17 1
  let n := atomicSize ty
  let (st, b, s) := readGran s pa
  let old := leNat ((b.drop (pa % 64)).take n)
  let bad := decide (st ≠ .ok)
  let new := atomicNew fn ty old (payNat c 0 8) (payNat c 8 8)
  let s := if bad then s else writeBytes pa ((leBytes n new).map some) false (some slot) s
  let d := rxRemember c (rxPoison c (cntInc (nicBase + 0x918) s.dev))
  { s with dev := sendAnswer (answerOf c 0xB 8 (leBytes 8 (if bad then 0 else old)) bad (payNat c 18 5)) d }

/-- A fadd's place in the key order of R478 comes before another's. -/
def keyBefore (a b : Nat × Nat) : Bool := decide (a.1 < b.1 ∨ (a.1 = b.1 ∧ a.2 < b.2))

/-- A fadd applied and remembered for R472 and R478; entries older than the longest run are forgotten. -/
def faddApply (slot pa : Nat) (c : Cell) (s : State) : State :=
  let s := atomicApply slot pa c s
  let now := s.dev.tim.now
  let log := (s.dev.nic.faddLog.filter (fun e => decide (now - e.at_ ≤ 2 ^ 18)))
  { s with dev := { s.dev with nic := { s.dev.nic with faddLog := ⟨slot, pa, c.src.toNat, c.seq.toNat, now⟩ :: log } } }

/-- A fadd in the default mode: counted where another requester's is near in time (R472). -/
def faddNow (slot pa : Nat) (c : Cell) (s : State) : State :=
  let near := s.dev.nic.faddLog.any (fun e => e.pa == pa && e.src != c.src.toNat && decide (s.dev.tim.now - e.at_ < 1000))
  faddApply slot pa c (if near then { s with dev := nondet slot 0x10 1 s.dev } else s)

/-- Keys applied in the present run of an element (R478). -/
def runKeys (d : Dev) (pa hold : Nat) : List (Nat × Nat) :=
  let held := d.nic.heldAtomics.any (fun h => h.pa == pa)
  let l := d.nic.faddLog.filter (fun e => e.pa == pa)
  let live := held || l.any (fun e => decide (d.tim.now - e.at_ < 2 * hold))
  if live then l.map (fun e => (e.src, e.seq)) else []

/-- A fadd in reproducible mode: held, or applied at once and counted where its key comes too late (R478). -/
def faddHold (slot pa : Nat) (c : Cell) (s : State) : State :=
  let hold := objGet s.dev 0x604002
  let key := (c.src.toNat, c.seq.toNat)
  if (runKeys s.dev pa hold).any (fun k => keyBefore key k) then
    faddApply slot pa c { s with dev := nondet slot 0x10 1 s.dev }
  else
    { s with dev := { s.dev with nic := { s.dev.nic with
        heldAtomics := snoc s.dev.nic.heldAtomics ⟨c, slot, pa, s.dev.tim.now, hold⟩ } } }

/-- An ATOMIC_REQ (R259, R323, R324, R478); byte 25 is 0 or 1, its other bits being reserved (log entry 90). -/
def rxAtomic (c : Cell) (s : State) : State :=
  match rxCheck c (rxTake c s.dev) with
  | .drop d => { s with dev := d }
  | .go slot d =>
    let fn := payNat c 16 1
    let ty := payNat c 17 1
    let n := atomicSize ty
    let p := payNat c 24 1
    let rest := payNat c 26 ((if c.k3 then 60 else 64) - 26)
    match rxRange d slot c p n true with
    | none => { s with dev := rxInvalid c d }
    | some pa =>
      if !(atomicLegal fn ty) || p % n != 0 || rest != 0 || decide (1 < payNat c 25 1) then { s with dev := rxInvalid c d }
      else if fn = 5 then
        (if reproSlot d slot then faddHold slot pa c { s with dev := d } else faddNow slot pa c { s with dev := d })
      else atomicApply slot pa c { s with dev := d }

/-- Insertion of a held fadd by its key. -/
def insHeld (h : HeldAtomic) : List HeldAtomic → List HeldAtomic
  | [] => [h]
  | a :: t =>
    if keyBefore (h.cell.src.toNat, h.cell.seq.toNat) (a.cell.src.toNat, a.cell.seq.toNat) then h :: a :: t
    else a :: insHeld h t

/-- Held fadds applied one after the other. -/
def applyHeld : List HeldAtomic → State → State
  | [], s => s
  | h :: t, s => applyHeld t (faddApply h.slot h.pa h.cell s)

/-- The hold of the oldest held fadd ends: the fadds held for its element are applied in key order (R478). -/
def holdEnds (s : State) : State :=
  match s.dev.nic.heldAtomics with
  | [] => s
  | h :: _ =>
    let d := advanceTo (h.at_ + h.hold) s.dev
    let mine := (d.nic.heldAtomics.filter (fun x => x.pa == h.pa)).foldl (fun acc x => insHeld x acc) []
    applyHeld mine { s with dev := { d with nic := { d.nic with
      heldAtomics := d.nic.heldAtomics.filter (fun x => x.pa != h.pa) } } }

/-! ### Answers (R244, R254, R259) -/

/-- An answer taken in; a k3 answer that fails its check is dropped (R298). -/
def rxAnswer (c : Cell) (s : State) : Option State :=
  let d := rxTake c s.dev
  match k3Check c d with
  | some d => some { s with dev := d }
  | none => none

/-- The requests a response may answer (R244). -/
def rspFor (c : Cell) (d : Dev) : Option OutCell :=
  (outFind d c.src.toNat c.ctx.toNat c.gen.toNat c.seq.toNat).filter (fun o =>
    o.cell.op.toNat == (if c.op = 9 then 8 else 0xA))

/-- The bytes of a response put where its request said (R173, R259, R320). -/
def placeRsp (o : OutCell) (c : Cell) (s : State) : State :=
  let n := if o.cell.op = 8 then o.cell.len.toNat + 1 else atomicSize (payNat o.cell 17 1)
  match o.place with
  | .none => s
  | .bytes pa => writeBytes pa ((payBytes c 0 n).map some) c.poison none s
  | .window l id off =>
    let p : Piece := ⟨off, payBytes c 0 n⟩
    { s with dev := lndMod l (trkMod id (fun t => { t with got := snoc t.got p, gotBad := t.gotBad || c.poison })) s.dev }

/-- A GET_RSP or an ATOMIC_RSP (R244, R259, R320, R324). -/
def rxRsp (c : Cell) (s : State) : State :=
  match rxAnswer c s with
  | some s => s
  | none =>
    let d := rxTake c s.dev
    match rspFor c d with
    | none => { s with dev := cntInc (nicBase + 0x820) d }
    | some o =>
      let s := placeRsp o c { s with dev := cntIf c.poison (nicBase + 0x878) (dropOut o d) }
      let s := match o.owner with
        | .item id => { s with dev := itemMod id (fun i => { i with poison := i.poison || c.poison }) s.dev }
        | _ => s
      cellDone o s

/-- Each sequence number of an ACK (R244). -/
def ackEach (c : Cell) : List Nat → State → State
  | [], s => s
  | q :: t, s =>
    match outFind s.dev c.src.toNat c.ctx.toNat c.gen.toNat q with
    | none => ackEach c t { s with dev := cntInc (nicBase + 0x820) s.dev }
    | some o => ackEach c t (cellDone o { s with dev := dropOut o s.dev })

/-- An ACK (R244). -/
def rxAck (c : Cell) (s : State) : State :=
  match rxAnswer c s with
  | some s => s
  | none =>
    let n := min (payNat c 0 2) 31
    ackEach c ((List.range n).map (fun i => payNat c (2 + 2 * i) 2))
      { s with dev := cntInc (nicBase + 0x818) (rxTake c s.dev) }

/-- An outstanding cell, as changed for its resend, is sent once more; an Express cell within the budgets of its window
(R254, R262, R297, R347). -/
def resendCell (o : OutCell) (replay : Bool) (d : Dev) : Dev :=
  let o' := { o with cell := k3Seal { o.cell with hops := 63, replay := replay } }
  if o.cell.cls = 0 then expSend o' d else sendOut o' d

/-- The stored copy of a cell changed, and sent once more. -/
def resendWith (f : OutCell → OutCell) (o : OutCell) (replay : Bool) (d : Dev) : Dev :=
  resendCell (f o) replay (outMod o f d)

/-- What the source does on a notice (R254). -/
def noticeAct (cause : Nat) (o : OutCell) (s : State) : State :=
  let fail (st : Nat) : State := cellFail o st cause { s with dev := dropOut o s.dev }
  match cause with
  | 0 | 6 =>
    if o.resends < objGet s.dev 0x420005 then
      { s with dev := resendWith (fun x => { x with resends := x.resends + 1 }) o false (cntInc (nicBase + 0x830) s.dev) }
    else fail 2
  | 1 => fail 6
  | 2 => fail 6
  | 3 => fail 4
  | 4 => fail 1
  | 5 => fail 3
  | 7 =>
    if o.early < objGet s.dev 0x450002 then { s with dev := outMod o (fun x => { x with parked := true }) s.dev }
    else fail 0xB
  | 8 => fail 1
  | _ => s

/-- A bounce notice; one of an answer is discarded (R254, R255). -/
def rxNotice (c : Cell) (s : State) : State :=
  let d := cntInc (nicBase + 0x828) (rxTake c s.dev)
  if c.op = 9 ∨ c.op = 0xB ∨ c.op = 0xC then { s with dev := cntInc (nicBase + 0x838) d }
  else
    match outFind d c.src.toNat c.ctx.toNat c.gen.toNat c.seq.toNat with
    | none => { s with dev := d }
    | some o => noticeAct c.len.toNat o { s with dev := d }

/-- The retry 2 µs after early_full (R347). -/
def earlyRetry (o : OutCell) (d : Dev) : Dev :=
  if o.parked then
    resendWith (fun x => { x with parked := false, early := x.early + 1 }) o false
      (cntInc (nicBase + 0x978) (cntInc (nicBase + 0x830) d))
  else d

/-- A native cell without an answer fails with timeout, or with dest_departed where the link lost it on DEPART; a k3 cell
follows R297 (R292, R333). -/
def itemTimeout (o : OutCell) (s : State) : State :=
  if o.cell.k3 then s
  else cellFail o (if o.lostDepart then 3 else 7) 0xFF { s with dev := cntInc (nicBase + 0x910) (dropOut o s.dev) }

/-- A k3 cell without an answer for 200 µs (R297). -/
def k3Resend (o : OutCell) (s : State) : State :=
  if !o.cell.k3 then s
  else if o.k3sends < 3 then
    { s with dev := resendWith (fun x => { x with k3sends := x.k3sends + 1 }) o true (cntInc (nicBase + 0x8A8) s.dev) }
  else cellFail o 7 0xFF { s with dev := dropOut o s.dev }

/-! ### Collective cells (R346) -/

/-- Cells the vestibule holds, held partials of reproducible mode among them (R314, R476). -/
def vestUsed (d : Dev) : Nat :=
  d.nic.vest.length + (d.nic.insts.map (fun x =>
    if x.kind = .reduce ∧ x.tree = true ∧ reproSlot d x.slot = true then
      (x.chunks.map (fun e => if e.2.done then 0 else (e.2.arr.filter (fun a => a.1 != x.me)).length)).sum
    else 0)).sum

/-- Capacity of the vestibule (R314). -/
def vestCap : Nat := 52428

/-- A partial that reproducible mode would have to hold (R476). -/
def holdsPartial (d : Dev) (c : Cell) (x : Inst) : Bool :=
  c.op == 0x10 && x.kind == .reduce && x.tree && reproSlot d x.slot &&
    decide ((x.chunk (collChunk c)).arr.length + 1 < x.memberOrder.length)

/-- A collective cell handled by the state of its operation (R346, R476). -/
def rxColl (c : Cell) (s : State) : State :=
  match rxCheck c (rxTake c s.dev) with
  | .drop d => { s with dev := d }
  | .go _ d =>
    let k := collKeyOf c
    let full := decide (vestCap ≤ vestUsed d)
    let stale (d : Dev) : Dev := rxApplied c (cntInc (nicBase + 0x980) d)
    match instFind d k with
    | some x =>
      if full && holdsPartial d c x then { s with dev := rxBounce 7 c (cntInc (nicBase + 0x970) d) }
      else
        let (s, ok) := collProcess k c { s with dev := d }
        { s with dev := if ok then rxApplied c s.dev else stale s.dev }
    | none =>
      if d.nic.doneInst.contains k then { s with dev := stale d }
      else if full then { s with dev := rxBounce 7 c (cntInc (nicBase + 0x970) d) }
      else
        { s with dev := rxApplied c (cntInc (nicBase + 0x968) { d with nic := { d.nic with vest := snoc d.nic.vest c } }) }

/-! ### Lock-step records and MGMT (R240, R483, R485) -/

/-- A partner's record: a freeze, or a record to match (R485). -/
def lsReceive (c : Cell) (i : Nat) (d : Dev) : Dev :=
  let rank := payNat c (16 * i) 2
  if rank = lsEmptyRank then d
  else if d.ls.state ≠ 2 then d
  else if rank = lsFreezeRank then lsFreeze 3 false d
  else
    let r : LsRec := ⟨0, rank, payNat c (16 * i + 2) 2 % 4096, payNat c (16 * i + 4) 4,
      BitVec.ofNat 64 (payNat c (16 * i + 8) 8), 0, d.tim.now⟩
    let d := { d with ls := { d.ls with recv := snoc d.ls.recv r } }
    lsMatch d.ls.mine d

/-- A DIGEST cell (R483, R485). -/
def rxDigest (c : Cell) (s : State) : State :=
  match rxCheck c (rxTake c s.dev) with
  | .drop d => { s with dev := d }
  | .go _ d =>
    let d := rxRemember c (rxPoison c d)
    { s with dev := if d.ls.ctx = c.ctx.toNat ∧ d.ls.partner = c.src.toNat then
        (List.range 4).foldl (fun d i => lsReceive c i d) d else d }

/-- A record unmatched for 1 ms, the oldest one first (R485; log entry 4). -/
def lsAbsent (d : Dev) : Dev :=
  match d.ls.mine ++ d.ls.recv with
  | [] => d
  | r :: t =>
    if d.ls.state = 2 then lsEnd 4 (advanceTo ((t.map (·.at_)).foldl min r.at_ + 10 ^ 6) d) else d

/-! ### The commands -/

/-- A cell arrives at the NIC as the op its command names; a notice or another op is no such arrival. -/
def arrive (op : Nat) (c : Cell) (f : Cell → State → State) (s : State) : Host.Outcome State Fault Refusal :=
  .next (if c.op.toNat = op ∧ c.bounce = false then clocked (f c) s else s)

/-- A COLL_CTRL of a kind (R342). -/
def arriveCtrl (kind : Nat) (c : Cell) (s : State) : Host.Outcome State Fault Refusal :=
  if payNat c 0 1 = kind then arrive 0x12 c rxColl s else .next s

/-- WRITE (R240, R259). -/
def execWrite (c : Cell) (s : State) : Host.Outcome State Fault Refusal := arrive 1 c (rxWrite false false) s

/-- WRITE_C (R240, R326). -/
def execWriteC (c : Cell) (s : State) : Host.Outcome State Fault Refusal := arrive 2 c (rxWrite true false) s

/-- WRITE_PART (R240). -/
def execWritePart (c : Cell) (s : State) : Host.Outcome State Fault Refusal := arrive 3 c (rxWrite false true) s

/-- WRITE_PART_C (R240, R326). -/
def execWritePartC (c : Cell) (s : State) : Host.Outcome State Fault Refusal := arrive 4 c (rxWrite true true) s

/-- NOTIFY (R240, R325). -/
def execNotify (c : Cell) (s : State) : Host.Outcome State Fault Refusal := arrive 5 c rxNotify s

/-- GET_REQ (R240). -/
def execGetReq (c : Cell) (s : State) : Host.Outcome State Fault Refusal := arrive 8 c rxGet s

/-- GET_RSP (R259). -/
def execGetRsp (c : Cell) (s : State) : Host.Outcome State Fault Refusal := arrive 9 c rxRsp s

/-- ATOMIC_REQ (R323). -/
def execAtomicReq (c : Cell) (s : State) : Host.Outcome State Fault Refusal := arrive 0xA c rxAtomic s

/-- ATOMIC_RSP (R259). -/
def execAtomicRsp (c : Cell) (s : State) : Host.Outcome State Fault Refusal := arrive 0xB c rxRsp s

/-- ACK (R244). -/
def execAck (c : Cell) (s : State) : Host.Outcome State Fault Refusal := arrive 0xC c rxAck s

/-- BOUNCE_NOTICE (R254). -/
def execBounceNotice (c : Cell) (s : State) : Host.Outcome State Fault Refusal := .next (if c.bounce then clocked (rxNotice c) s else s)

/-- COLL_DATA (R346). -/
def execCollData (c : Cell) (s : State) : Host.Outcome State Fault Refusal := arrive 0x10 c rxColl s

/-- COLL_HDR (R351). -/
def execCollHdr (c : Cell) (s : State) : Host.Outcome State Fault Refusal := arrive 0x11 c rxColl s

/-- FINISH (R354). -/
def execFinish (c : Cell) (s : State) : Host.Outcome State Fault Refusal := arriveCtrl 1 c s

/-- DONE (R354). -/
def execDoneMsg (c : Cell) (s : State) : Host.Outcome State Fault Refusal := arriveCtrl 2 c s

/-- ABORT (R355). -/
def execAbortMsg (c : Cell) (s : State) : Host.Outcome State Fault Refusal := arriveCtrl 3 c s

/-- OVERFLOW (R353). -/
def execOverflow (c : Cell) (s : State) : Host.Outcome State Fault Refusal := arriveCtrl 4 c s

/-- DIGEST (R485). -/
def execDigest (c : Cell) (s : State) : Host.Outcome State Fault Refusal := arrive 0x18 c rxDigest s

/-- MGMT (R240): the cell is delivered to the HMP through port 19. -/
def execMgmt (c : Cell) (s : State) : Host.Outcome State Fault Refusal :=
  .next (if c.op.toNat = 0x20 ∧ c.bounce = false then
    clocked (onDev (fun d => { d with rtr := { d.rtr with toHmp := d.rtr.toHmp.erase c } })) s else s)

/-- ACK_DELAY (R244). -/
def execAckDelay (src ctx : BitVec 12) (gen : BitVec 4) (cls : BitVec 2) (s : State) : Host.Outcome State Fault Refusal :=
  .next (match s.dev.nic.acks.find? (fun e => e.src == src.toNat && e.ctx == ctx.toNat && e.gen == gen.toNat &&
      e.cls == cls.toNat) with
    | some e => clocked (onDev (ackSend e)) s
    | none => s)

/-- A command on the outstanding cell of a flow with a sequence number. -/
def onOut (dst ctx : BitVec 12) (gen : BitVec 4) (seq : BitVec 16) (f : OutCell → State → State) (s : State) :
    Host.Outcome State Fault Refusal :=
  .next (match outFind s.dev dst.toNat ctx.toNat gen.toNat seq.toNat with
    | some o => clocked (f o) s
    | none => s)

/-- ITEM_TIMEOUT (R333). -/
def execItemTimeout (dst ctx : BitVec 12) (gen : BitVec 4) (seq : BitVec 16) (s : State) :
    Host.Outcome State Fault Refusal := onOut dst ctx gen seq itemTimeout s

/-- K3_RESEND (R297). -/
def execK3Resend (dst ctx : BitVec 12) (gen : BitVec 4) (seq : BitVec 16) (s : State) :
    Host.Outcome State Fault Refusal := onOut dst ctx gen seq k3Resend s

/-- EARLY_FULL_RETRY (R347). -/
def execEarlyFullRetry (dst ctx : BitVec 12) (gen : BitVec 4) (seq : BitVec 16) (s : State) :
    Host.Outcome State Fault Refusal := onOut dst ctx gen seq (fun o s => { s with dev := earlyRetry o s.dev }) s

/-- FLOW_FORGET (R242): a flow without an outstanding cell starts again at 0. -/
def execFlowForget (dst ctx : BitVec 12) (gen : BitVec 4) (s : State) : Host.Outcome State Fault Refusal :=
  let mine (c : Cell) : Bool := c.dst == dst && c.ctx == ctx && c.gen == gen
  let n := s.dev.nic
  .next (if (n.resend ++ n.waitq ++ n.expq).any (fun o => mine o.cell) then s
    else clocked (onDev (fun d => { d with nic := { d.nic with
        flows := d.nic.flows.filter (fun f => !(f.dst == dst.toNat && f.ctx == ctx.toNat && f.gen == gen.toNat)) } })) s)

/-- REPRO_ATOMIC_HOLD (R478). -/
def execReproAtomicHold (s : State) : Host.Outcome State Fault Refusal := .next (clocked holdEnds s)

/-- LS_PARTNER_ABSENT (R485). -/
def execLsPartnerAbsent (s : State) : Host.Outcome State Fault Refusal := .next (clocked (onDev lsAbsent) s)

/-- Queued Express cells released while the window has budget, in the order of their issue (R262). -/
def releaseExpress : List OutCell → Dev → Dev
  | [], d => d
  | o :: t, d =>
    if expRoom d o.cell.dst.toNat then releaseExpress t (expRelease o d)
    else releaseExpress t { d with nic := { d.nic with expq := snoc d.nic.expq o } }

/-- EXPRESS_WINDOW_BOUNDARY: budgets are refilled with the settings then in force, waiting cells go, the withdrawn bound
may come back (R48, R262, R263). -/
def execExpressWindowBoundary (s : State) : Host.Outcome State Fault Refusal :=
  let d := toBoundary 1024 s.dev.tim.expWin s.dev
  let d := { d with tim := { d.tim with expWin := d.tim.count.toNat / 1024 } }
  let d := { d with nic := { d.nic with
    expOut := 0, expTo := [], expIn := 0, expBudget := objGet d 0x420003, expAlloc := blobGet d 0x420004 [] } }
  let d := if d.tim.expressWithdrawn && boundInForce d.tim && hubUp d then
      timChange (fun t => { t with expressWithdrawn := false }) d else d
  let s := failExpress { s with dev := d }
  .next { s with dev := releaseExpress s.dev.nic.expq { s.dev with nic := { s.dev.nic with expq := [] } } }

end Sys2Proof.Machine
end

