-- ==== Sys2Proof/Machine/RackTime.lean ====
section
/-! DEFINITION. Time cells, the combined estimate, the lock states and RT_PULSE (R28 to R43). -/

namespace Sys2Proof.Machine

/-! ### Time cells (R30 to R33) -/

def timePortDefault : TimePort := ⟨0, [], false, [], none, false, false, false, false, false, 0, 0⟩

/-- The time port of rack port 6 + i. -/
def tpGet (d : Dev) (i : Nat) : TimePort := spGet timePortDefault d.tim.ports i

def tpPut (i : Nat) (x : TimePort) (d : Dev) : Dev :=
  { d with tim := { d.tim with ports := spPut timePortDefault i x d.tim.ports } }

/-- The check field of a time cell: CRC-32 over payload bytes 0 to 59 (R31, R32). -/
def timeCheck (c : Cell) : W32 := crc32 (payBytes c 0 60)

/-- The four stamps of an exchange: θ and δ in half nanoseconds (R32). -/
def timeOffset (t1 t2 t3 t4 : Nat) : Int × Int :=
  (((t4 : Int) - t3) - ((t2 : Int) - t1), ((t4 : Int) - t3) + ((t2 : Int) - t1))

/-- δ lies in 0 to 500 ns and within 8 ns of the mean of the last 16 (R33). -/
def delayOk (deltas : List Int) (delta : Int) : Bool :=
  decide (0 ≤ delta ∧ delta ≤ 1000) &&
    (decide (deltas.length < 16) || decide ((16 * delta - deltas.sum).natAbs ≤ 256))

/-- A req_seq is that of a TIME_REQ which the port sent within the last four periods of 2^16 ns (R33). -/
def reqKnown (x : TimePort) (now : Nat) (q : W32) : Bool :=
  x.reqs.any (fun e => e.1 == q && decide (now ≤ e.2 + 4 * 2 ^ 16))

/-- A TIME_SYNC at rack port 6 + i (R30 to R33): counted, answered by a TIME_REQ later, and an estimate where it is
valid and the port gives time. -/
def timeSyncArrive (i : Nat) (c : Cell) (d : Dev) : Dev :=
  let d := cntInc (objCnt 0x303001) d
  if (portGet d (6 + i)).k3 then cntInc (objCnt 0x303002) d
  else
    let x := { tpGet d i with reqDue := true }
    let flags := payNat c 34 1
    let checkOk := payNat c 60 4 == (timeCheck c).toNat
    let x := if checkOk then
        { x with
          heard := true, master := payNat c 33 1 == 1, masterValid := flags % 2 == 1, hallTraceable := flags / 2 % 2 == 1 }
      else x
    if !((BitVec.ofNat 8 (objGet d 0x301004)).getLsbD i) then tpPut i x d
    else
      let (th, de) := timeOffset (payNat c 16 8) (payNat c 8 8) (payNat c 0 8) d.tim.count.toNat
      let valid := checkOk && flags % 2 == 1 && reqKnown x d.tim.now (BitVec.ofNat 32 (payNat c 24 4)) &&
        delayOk x.deltas de
      if valid then tpPut i { x with deltas := (de :: x.deltas).take 16, est := some th } d
      else tpPut i x (cntInc (objCnt 0x303002) d)

/-- A time cell that is discarded: at a port that carries no time, or a TIME_REQ, which no module takes (R30; log entry
74). A TIME_SYNC is counted as received (R59). -/
def timeCellDiscard (c : Cell) (d : Dev) : Dev := cntInc (objCnt 0x303002) (cntIf (c.op == 0x3E) (objCnt 0x303001) d)

/-- A TIME_REQ of this module (R32). -/
def timeReqCell (d : Dev) (seq : W32) : Cell :=
  let b := leBytes 8 d.tim.count.toNat ++ leBytes 4 seq.toNat
  let c : Cell := { cellZero with dst := d.rtr.node, src := d.rtr.node, cls := 3, op := 0x3F, len := 63, payload := payloadOf b }
  { c with payload := setField c.payload 480 32 (timeCheck c).toNat }

/-- The port carries link-local cells: ACTIVE or ADMIT_WAIT (R281). -/
def portLocal (d : Dev) (p : Nat) : Bool := (portGet d p).st == .active || (portGet d p).st == .admitWait

/-- The input number of a cell that a port makes itself: a link-local cell, or a replay of R303. -/
def ownInput : Nat := 20

/-- A cell of an input gets a slot on a port: it goes into a next unit. -/
def portSend (p inp : Nat) (c : Cell) (d : Dev) : Dev :=
  { d with rtr := { d.rtr with outq := spMod [] p (fun q => snoc q (inp, c)) d.rtr.outq } }

/-- A TIME_REQ leaves on rack port 6 + i: its stamp is the count at its first symbol, and the port keeps the time (R32,
R33, R279). -/
def timeReqLeaves (i : Nat) (c : Cell) (d : Dev) : Cell × Dev :=
  let q : W32 := BitVec.ofNat 32 (payNat c 8 4)
  (timeReqCell d q, tpPut i { tpGet d i with reqs := ((q, d.tim.now) :: (tpGet d i).reqs).take 4 } d)

/-- The TIME_REQ due on rack port 6 + i goes into the next unit; it is stamped as it leaves (R32). -/
def timeReqSend (i : Nat) (d : Dev) : Dev :=
  let x := tpGet d i
  if !x.reqDue || !(portLocal d (6 + i)) || (portGet d (6 + i)).k3 then d
  else
    portSend (6 + i) ownInput (timeReqCell d x.reqNext)
      (tpPut i { x with reqNext := x.reqNext + 1, reqDue := false } d)

/-! ### The combined estimate (R34, R37, R38) -/

/-- Insertion into a rising list. -/
def insInt (a : Int) : List Int → List Int
  | [] => [a]
  | b :: t => if a ≤ b then a :: b :: t else b :: insInt a t

/-- The median of estimates in half nanoseconds, in quarter nanoseconds (R34). -/
def median4 (l : List Int) : Option Int :=
  let s := l.foldl (fun acc a => insInt a acc) []
  let n := s.length
  if n = 0 then none
  else if n % 2 = 1 then some (2 * (s[n / 2]?.getD 0))
  else some (s[n / 2 - 1]?.getD 0 + s[n / 2]?.getD 0)

/-- The estimates of this period from admitted ports. -/
def periodEstimates (d : Dev) : List Int :=
  (List.range 6).filterMap (fun i => if (tpGet d i).rejected then none else (tpGet d i).est)

/-- A port's runs beyond and within the limit of R34 after a period; a period without an estimate of the port ends both
(log entry 75). -/
def portRuns (limit : Nat) (m : Option Int) (x : TimePort) : TimePort :=
  match m, x.est with
  | some m, some e =>
    if 4 * limit < (2 * e - m).natAbs then { x with outRun := x.outRun + 1, inRun := 0, est := none, heard := false }
    else { x with outRun := 0, inRun := x.inRun + 1, est := none, heard := false }
  | _, none => { x with outRun := 0, inRun := 0, est := none, heard := false }
  | none, some _ => { x with est := none, heard := false }

/-- 16 ms in quarter nanoseconds. -/
def stepLimit4 : Nat := 64 * 10 ^ 6

/-- The count at a new value: the windows begun are those of the value before it. -/
def countAt (n : W64) (t : Tim) : Tim :=
  { t with count := n, expWin := (n.toNat - 1) / 2 ^ 10, powWin := (n.toNat - 1) / 2 ^ 20,
           telWin := (n.toNat - 1) / 2 ^ 24, slew := 0, slewAcc := 0 }

/-- The count set to the master's time by an estimate in quarter nanoseconds. -/
def setCount (th : Int) (t : Tim) : Tim := countAt (BitVec.ofInt 64 ((t.count.toNat : Int) - th.tdiv 4)) t

/-- The setting on leaving UNLOCKED: what is pending waits for the first power window boundary after it (R39). -/
def firstSetting (th : Int) (t : Tim) : Tim :=
  let t := setCount th t
  { t with sched := t.sched.map (fun a => { a with boundary := 0 }) }

/-- The correction made in ACQUIRING (R38, R39). -/
def acquireCorrect (th : Int) (d : Dev) : Dev :=
  if th.natAbs ≤ stepLimit4 then
    timChange (fun t => { t with slew := th.tdiv 4, slewAcc := 0, backwardHold := false, backwardBy := 0 }) d
  else if th < 0 then
    let lo := d.tim.count.toNat
    let hi := lo + th.natAbs / 4
    let at_ (a : Sched) : Nat := if a.boundary = 0 then (lo / 2 ^ 20 + 1) * 2 ^ 20 else a.boundary
    timChange (fun t => { setCount th t with backwardHold := false, backwardBy := 0 })
      (cancelSched (fun a => decide (lo < at_ a ∧ at_ a < hi)) d)
  else timChange (fun t => { t with backwardHold := true, backwardBy := th.natAbs / 4, slew := 0, slewAcc := 0 }) d

/-- A combined estimate acts on state and count; `bound` is the error bound before it (R37, R38). In HOLDOVER it takes the
place of what an RT_PULSE edge left to slew (log entry 77). -/
def combine (th : Int) (bound : Option Nat) (d : Dev) : Dev :=
  let d := { d with tim := { d.tim with lastEst := d.tim.now, estPresent := true } }
  let okRun := if th.natAbs ≤ 16 then d.tim.okRun + 1 else 0
  let slewed (t : Tim) : Tim := { t with slew := th.tdiv 4, slewAcc := 0, okRun := okRun }
  match d.tim.state with
  | .unlocked => setLock .acquiring { d with tim := firstSetting th d.tim }
  | .lost => acquireCorrect th (setLock .acquiring d)
  | .acquiring =>
    let d := acquireCorrect th { d with tim := { d.tim with okRun := okRun } }
    if 16 ≤ okRun then setLock .locked d else d
  | .locked =>
    let badRun := if 64 < th.natAbs then d.tim.badRun + 1 else 0
    if 4 ≤ badRun then acquireCorrect th (setLock .acquiring d)
    else { d with tim := { slewed d.tim with badRun := badRun } }
  | .holdover =>
    let lim := (bound.getD 0) / (25 * 10 ^ 7) + 64
    if lim < th.natAbs then acquireCorrect th (setLock .acquiring d)
    else
      let d := timChange slewed d
      if 16 ≤ okRun then setLock .locked d else d

/-- The one backward step that has been authorised (R38, R39). -/
def backwardStep (d : Dev) : Dev :=
  let by_ := d.tim.backwardBy
  timChange (fun t => { countAt (t.count - BitVec.ofNat 64 by_) t with backwardHold := false, backwardBy := 0 })
    (cancelSched (fun _ => true) d)

/-- master_valid: the admitted ports that gave time in the period all report it (R57; log entry 76). -/
def mastersValid (d : Dev) : Bool :=
  let l := (List.range 6).filter (fun i =>
    (BitVec.ofNat 8 (objGet d 0x301004)).getLsbD i && !(tpGet d i).rejected && (tpGet d i).heard)
  !l.isEmpty && l.all (fun i => (tpGet d i).masterValid)

/-- The end of a 2^16 ns period (R34). The master is that of the lowest-numbered port with an estimate (log entry
76). -/
def combinedEstimate (d : Dev) : Dev :=
  let m := median4 (periodEstimates d)
  let bound := errBound d.tim
  let limit := objGet d 0x301002
  let used := (List.range 6).filter (fun i => !(tpGet d i).rejected && (tpGet d i).est.isSome)
  let valid : BitVec 6 := used.foldl (fun (b : BitVec 6) i => setField b i 1 1) 0
  let mst := (used.head?.map (fun i => (tpGet d i).master)).getD d.tim.master
  let mv := mastersValid d
  let d := (List.range 6).foldl (fun d i => tpPut i (portRuns limit m (tpGet d i)) d) d
  let d := timChange (fun t => { t with
    portValid := valid, master := mst, masterValid := mv, estPresent := m.isSome }) d
  match m with
  | none => d
  | some th => combine th bound d

/-- A port's rejection or return after 16 periods (R34). -/
def portReject (i : Nat) (d : Dev) : Dev :=
  let x := tpGet d i
  if !x.rejected && decide (16 ≤ x.outRun) then
    emit 0x3004 (6 + i) 1 (timEvtBit 4 (cntInc (objCnt 0x303003) (tpPut i { x with rejected := true } d)))
  else if x.rejected && decide (16 ≤ x.inRun) then
    emit 0x3004 (6 + i) 0 (timEvtBit 4 (tpPut i { x with rejected := false } d))
  else d

/-- No combined estimate for 2^18 ns (R35, R37). -/
def estimateTimeout (d : Dev) : Dev :=
  let d := advanceTo (d.tim.lastEst + 2 ^ 18) d
  match d.tim.state with
  | .acquiring => setLock (if d.tim.everLocked then .lost else .unlocked) d
  | .locked => setLock .holdover d
  | .holdover => timChange (fun t => { t with estPresent := false }) d
  | _ => d

/-- The holdover limit passes; while pulse-held it does not (R37, R42). -/
def holdoverLimit (d : Dev) : Dev :=
  if d.tim.state = .holdover ∧ d.tim.pulseHeld = false then
    setLock .lost (advanceTo (max d.tim.lastEst (d.tim.lastPulse.getD 0) + objGet d 0x301001 * 10 ^ 6 + 1) d)
  else d

/-- Elapsed holdover at which the bound first exceeds 28 ns (R40). -/
def withdrawAfter (t : Tim) : Nat :=
  let base := match t.lastPulse with
    | some p => if t.lastEst ≤ p then 10 else 4
    | none => 4
  (28 - base) * 10 ^ 9 / driftRate t + 1

/-- The Express bound is withdrawn once the error bound exceeds 28 ns (R40, R48). -/
def expressWithdraw (d : Dev) : Dev :=
  if d.tim.state ≠ .holdover then d
  else
    let d := if d.tim.pulseHeld then d
      else advanceTo (max d.tim.lastEst (d.tim.lastPulse.getD 0) + withdrawAfter d.tim) d
    if boundInForce d.tim then d else timChange (fun t => { t with expressWithdrawn := true }) d

/-! ### RT_PULSE (R41 to R43) -/

/-- Distance of the count from the nearest multiple of 2^20 ns, positive when the count is past it. -/
def pulseOffset (t : Tim) : Int :=
  let m : Nat := t.count.toNat % 2 ^ 20
  if m < 2 ^ 19 then Int.ofNat m else Int.ofNat m - Int.ofNat (2 ^ 20)

/-- A rising edge of RT_PULSE (R41, R42). A valid edge takes the place of what an estimate left to slew; the first edge that
is out of tolerance ends the hold (log entry 77). -/
def pulseEdge (d : Dev) : Dev :=
  if objGet d 0x301005 = 0 ∨ extestOn d = true then d
  else
    let off := pulseOffset d.tim
    let near := decide (off.natAbs ≤ 64)
    let d := { d with tim := { d.tim with pulseAbsent := false, pulseLevel := true } }
    let miss (d : Dev) : Dev := timEvtBit 5 (cntInc (objCnt 0x303004) d)
    match d.tim.state with
    | .locked => if near then d else miss d
    | .holdover =>
      if near then timChange (fun t => { t with slew := off, slewAcc := 0, lastPulse := some t.now, pulseHeld := true }) d
      else timChange (fun t => { t with pulseHeld := false }) (miss d)
    | _ => d

/-- RT_PULSE static for longer than 2^21 ns (R43). -/
def pulseAbsent (d : Dev) : Dev := timChange (fun t => { t with pulseAbsent := true, pulseHeld := false }) d

/-! ### The commands -/

/-- An event of the rack time unit, which works from the release of the hub uncore (R29). -/
def timeEvent (f : Dev → Dev) (s : State) : Host.Outcome State Fault Refusal :=
  .next (if hubUp s.dev then { s with dev := f s.dev } else s)

/-- TIME_SYNC (R33): the cell arrives at a rack port that carries link-local cells. -/
def execTimeSync (port : Fin 6) (c : Cell) (s : State) : Host.Outcome State Fault Refusal :=
  timeEvent (fun d => if portLocal d (6 + port.val) then timeSyncArrive port.val c d else d) s

/-- TIME_REQ (R32). -/
def execTimeReq (port : Fin 6) (s : State) : Host.Outcome State Fault Refusal := timeEvent (timeReqSend port.val) s

/-- COMBINED_ESTIMATE (R34). -/
def execCombinedEstimate (s : State) : Host.Outcome State Fault Refusal := timeEvent combinedEstimate s

/-- TIME_PORT_REJECT (R34). -/
def execTimePortReject (port : Fin 6) (s : State) : Host.Outcome State Fault Refusal := timeEvent (portReject port.val) s

/-- ESTIMATE_TIMEOUT (R37). -/
def execEstimateTimeout (s : State) : Host.Outcome State Fault Refusal := timeEvent estimateTimeout s

/-- HOLDOVER_LIMIT (R37). -/
def execHoldoverLimit (s : State) : Host.Outcome State Fault Refusal := timeEvent holdoverLimit s

/-- EXPRESS_BOUND_WITHDRAW (R40). -/
def execExpressBoundWithdraw (s : State) : Host.Outcome State Fault Refusal := timeEvent expressWithdraw s

/-- RT_PULSE_EDGE (R42). -/
def execRtPulseEdge (s : State) : Host.Outcome State Fault Refusal := timeEvent pulseEdge s

/-- RT_PULSE_ABSENT (R43). -/
def execRtPulseAbsent (s : State) : Host.Outcome State Fault Refusal := timeEvent pulseAbsent s

end Sys2Proof.Machine
end

