-- ==== Sys2Proof/Machine/PortBase.lean ====
section
/-! DEFINITION. What the commands of the ports share: lanes, state transitions, the topology check, Express ownership,
leaving ACTIVE, the decision on a partner's identity, and the objects that act on ports (R281 to R306, R438, R451,
R465). -/

namespace Sys2Proof.Machine

/-! ### Lanes (R293, R294, R429) -/

/-- The number of a port state (R281). -/
def PState.code : PState → Nat
  | .disabled => 0 | .detect => 1 | .equalize => 2 | .align => 3 | .identify => 4 | .admitWait => 5 | .active => 6
  | .drain => 7 | .retrain => 8 | .held => 9 | .retired => 10

/-- Lanes of a port that the fuse record names bad (R428). -/
def lanesFused (d : Dev) (p : Nat) : BitVec 4 := BitVec.ofNat 4 (fieldN d.fuses.laneBad (4 * p + 3) (4 * p))

/-- Lanes that the defect list retires (R431). -/
def lanesListed (d : Dev) (p : Nat) : BitVec 4 :=
  (d.health.defects.filter (fun e => e.kind == 2 && e.unit == p)).foldl (fun m e => m ||| e.detail.setWidth 4) 0

/-- Usable lanes: neither retired nor fused off (R293, R429). -/
def usable (d : Dev) (p : Nat) : BitVec 4 := ~~~((portGet d p).retired ||| lanesFused d p)

/-- Ones of a lane mask. -/
def laneCount (m : BitVec 4) : Nat := popCount m 4

/-- The lowest `n` lanes of a mask (R286). -/
def lowestLanes (n : Nat) (m : BitVec 4) : BitVec 4 :=
  (((List.range 4).filter (fun l => m.getLsbD l)).take n).foldl (fun a l => setField a l 1 1) 0

def laneDefault : Lane := ⟨0, 0, 0, 0, false, false, false, [], 0, 0, 0, [], 0, 0, 0, 0, 0⟩

def laneGet (x : Port) (l : Nat) : Lane := spGet laneDefault x.laneState l

def laneMod (l : Nat) (f : Lane → Lane) (x : Port) : Port := { x with laneState := spMod laneDefault l f x.laneState }

/-- Every lane of a mask satisfies a condition. -/
def lanesAll (x : Port) (m : BitVec 4) (f : Lane → Bool) : Bool :=
  (List.range 4).all (fun l => !(m.getLsbD l) || f (laneGet x l))

/-- The lanes of a mask that satisfy a condition. -/
def lanesWith (x : Port) (m : BitVec 4) (f : Lane → Bool) : BitVec 4 :=
  (List.range 4).foldl (fun a l => if m.getLsbD l && f (laneGet x l) then setField a l 1 1 else a) (0 : BitVec 4)

/-- Every lane's training changed. -/
def lanesMod (f : Lane → Lane) (x : Port) : Port := (List.range 4).foldl (fun x l => laneMod l f x) x

/-! ### Partners (R250, R285) -/

/-- An identity from its block; none where a bit that must be 0 is not (R278, R285). -/
def identOf (b : BitVec 512) : Option Ident :=
  if fieldN b 15 12 = 0 ∧ fieldN b 55 52 = 0 ∧ fieldN b 511 112 = 0 then
    some ⟨b.extractLsb' 0 12, b.extractLsb' 16 8, b.extractLsb' 24 8, b.extractLsb' 32 8, b.extractLsb' 40 8,
      b.extractLsb' 48 4, b.extractLsb' 56 8, b.extractLsb' 64 32, b.extractLsb' 96 8, b.extractLsb' 104 8⟩
  else none

/-- A valid IDENT, as R282 asks for: its type is 0 to 3 and its width_limit 1 to 4 (R285; log entry 91). -/
def identValid (i : Ident) : Bool := decide (i.kind.toNat ≤ 3 ∧ 1 ≤ i.widthLimit.toNat ∧ i.widthLimit.toNat ≤ 4)

/-- The identity block of an identity (R285). -/
def identBlock (i : Ident) : BitVec 512 :=
  payloadOf (leBytes 2 i.node.toNat ++ [i.boardSlot, i.trayId, i.port, i.kind, BitVec.ofNat 8 i.lanes.toNat, i.modes] ++
    leBytes 4 i.incarnation.toNat ++ [i.plane, i.widthLimit])

/-- width_limit of a port (R313). -/
def widthLimit (d : Dev) (p : Nat) : Nat := ((blobGet d 0x440002 (List.replicate 16 4))[p]?.getD 4).toNat

/-- k3_allow of a port. -/
def k3Allow (d : Dev) (p : Nat) : Bool := (BitVec.ofNat 16 (objGet d 0x440003)).getLsbD p

/-- port_enable of a port. -/
def portEnabled (d : Dev) (p : Nat) : Bool := (BitVec.ofNat 16 (objGet d 0x440001)).getLsbD p

/-- The identity this module sends on a port (R285). -/
def ownIdent (d : Dev) (p : Nat) : Ident where
  node := d.rtr.node
  boardSlot := BitVec.ofNat 8 d.fuses.boardSlot
  trayId := BitVec.ofNat 8 d.fuses.trayId
  port := BitVec.ofNat 8 p
  kind := 0
  lanes := usable d p
  modes := if k3Allow d p then 3 else 1
  incarnation := d.rst.incarnation
  plane := 0xFF
  widthLimit := BitVec.ofNat 8 (widthLimit d p)

/-- A router partner: a module, a switch plane or a K3 module (R250, R285). -/
def routerPartner (x : Port) : Bool :=
  match x.ident with
  | some i => i.kind != 2
  | none => false

/-- Traffic on the port is governed by credit: K3 mode, or an endpoint (R250, R295). -/
def byCredit (x : Port) : Bool :=
  x.k3 || (match x.ident with
    | some i => i.kind == 2
    | none => false)

/-- The partner is an endpoint (R250, R285). -/
def isEndpoint (x : Port) : Bool :=
  match x.ident with
  | some i => i.kind == 2
  | none => false

/-- A place in staging becomes free: credit goes back to a partner that needs it (R250, R295). -/
def stagingFree (p : Nat) (d : Dev) : Dev :=
  if byCredit (portGet d p) then portMod p (fun x => { x with owed := x.owed + 1 }) d else d

/-- A port from whose partner cells enter the fabric here: an edge port with an endpoint (R258). -/
def endpointPort (d : Dev) (p : Nat) : Bool :=
  decide (12 ≤ p) && (match (portGet d p).ident with
    | some i => i.kind == 2
    | none => false)

/-! ### The topology check (R437, R438) -/

/-- The entry of expected_ports for a port: kind, required, node, partner's port. -/
def expectedPort (d : Dev) (p : Nat) : Nat × Bool × Nat × Nat :=
  let b := blobGet d 0x410001 []
  if b.isEmpty then (0, false, 0xFFFF, 0xFF)
  else
    let e := (b.drop (8 * p)).take 8
    (leNat (e.take 1), leNat ((e.drop 1).take 1) == 1, leNat ((e.drop 2).take 2), leNat ((e.drop 4).take 1))

/-- The kind of R437 that an IDENT type stands for. -/
def kindOfType (ty : Nat) : Nat :=
  match ty with
  | 0 => 2 | 1 => 3 | 2 => 4 | _ => 5

/-- The result of a trained port (R438). -/
def topoTrained (d : Dev) (p : Nat) (i : Ident) : Nat :=
  let (kind, _, node, port) := expectedPort d p
  let board := decide (p < 6)
  if kind = 1 then 2
  else if kind ≠ 0 ∧ kind ≠ kindOfType i.kind.toNat then 3
  else if kind = 0 then 0
  else if node ≠ 0xFFFF ∧ node ≠ i.node.toNat then 4
  else if (port ≠ 0xFF ∧ port ≠ i.port.toNat) ∨ (board = true ∧ i.port.toNat ≠ p) then 5
  else if board = true ∧ (i.boardSlot.toNat ≠ (d.fuses.boardSlot ^^^ (p / 2 + 1)) ∨ i.trayId.toNat ≠ d.fuses.trayId) then 6
  else 0

/-- The result of a port (R438). -/
def topoResult (d : Dev) (p : Nat) : Nat :=
  let x := portGet d p
  let absent := if (expectedPort d p).2.1 then 1 else 9
  match x.st with
  | .held => 7
  | .equalize => 8
  | .align => 8
  | .identify => 8
  | .retrain => 8
  | .disabled => absent
  | .detect => absent
  | .retired => absent
  | _ =>
    match x.ident with
    | some i => topoTrained d p i
    | none => 8

/-- Byte p of topology_result, as last reported. -/
def topoGet (d : Dev) (p : Nat) : Nat := ((blobGet d 0x410002 (List.replicate 16 8))[p]?.getD 8).toNat

/-- A change of start_phase or start_hold sends event 0x1004 (R424, R505). -/
def setPhase (phase hold : Nat) (d : Dev) : Dev :=
  if d.rst.phase = phase ∧ d.rst.hold = hold then d
  else emit 0x1004 0 (BitVec.ofNat 64 (phase + 256 * hold)) { d with rst := { d.rst with phase := phase, hold := hold } }

/-- One run of the check: the results, their events, start_hold, and the move to ADMIT once it passes (R438, R439). -/
def topoRun (d : Dev) : Dev :=
  let res := (List.range 16).map (fun p => topoResult d p)
  let d' := (List.range 16).foldl (fun e p =>
    let r := res[p]?.getD 8
    if topoGet d p = r then e else emit 0x4005 p (BitVec.ofNat 64 r) e) d
  let d' := blobPut 0x410002 (res.map (fun r => BitVec.ofNat 8 r)) d'
  if res.all (fun r => r == 0 || r == 9) then setPhase 7 2 { d' with rst := { d'.rst with topoOk := true } }
  else if res.any (fun r => decide (1 ≤ r ∧ r ≤ 7)) then setPhase 6 1 d'
  else setPhase 6 0 d'

/-- The check is run again at a change until it passes (R438). -/
def topoAgain (d : Dev) : Dev :=
  if d.health.state = .start ∧ d.rst.phase = 6 ∧ d.rst.topoOk = false then topoRun d else d

/-! ### Events of a port (R282, R310, R451) -/

/-- A bit of PRT_EVT set; vector 3 fires when it becomes 1 (R310, R554). -/
def prtEvtBit (p b : Nat) (d : Dev) : Dev :=
  if (portGet d p).evt.getLsbD b then d
  else fireVec 3 (portMod p (fun x => { x with evt := setField x.evt b 1 1 }) d)

/-- A port up at some width. -/
def portTrained (x : Port) : Bool := x.st == .admitWait || x.st == .active || x.st == .drain

/-- Degraded cause port_reduced (R451). -/
def portReduced (d : Dev) : Bool :=
  (List.range 16).any (fun p =>
    let x := portGet d p
    (decide (p < 12) || (expectedPort d p).2.1) &&
      ((portTrained x && decide (x.width < 4)) || x.st == .retired || x.st == .held))

/-! ### Express ownership (R299 to R306) -/

/-- Eligible to own Express (R300). -/
def expEligible (d : Dev) (p : Nat) : Bool :=
  let x := portGet d p
  decide (6 ≤ p ∧ p ≤ 11) && x.st == .active && !x.k3 && x.width == 4 && !x.trigNow && !x.trigPrev

/-- The primary of a port's pair (R299). -/
def expPrimary (d : Dev) (p : Nat) : Nat :=
  let lo := p / 2 * 2
  if (BitVec.ofNat 8 (objGet d 0x440005)).getLsbD (lo / 2 - 3) then lo + 1 else lo

/-- What the owner's mirror holds from the beginning of protection: the last ack and the window account (R301). -/
def mirrorBegin (p : Nat) (d : Dev) : Dev :=
  let y := portGet d (pairOf p)
  if !y.owner then d
  else portMod p (fun x => { x with
    mirrorAck := y.rxAck, acctWin := y.acctWin, acctNow := y.acctNow, acctPrev := y.acctPrev }) d

/-- exp_protected follows ownership and the partner's eligibility (R301). -/
def expProtect (lo : Nat) (d : Dev) : Dev :=
  let prot := ((portGet d lo).owner && expEligible d (lo + 1)) || ((portGet d (lo + 1)).owner && expEligible d lo)
  [lo, lo + 1].foldl (fun d p =>
    let x := portGet d p
    if x.protected_ = prot then d
    else
      let d := portMod p (fun x => { x with protected_ := prot }) (if prot then mirrorBegin p d else d)
      emit 0x4002 p (BitVec.ofNat 64 (b2n x.owner + 256 * b2n prot)) (prtEvtBit p 2 d)) d

/-- The same for all three pairs. -/
def expProtectAll (d : Dev) : Dev := expProtect 10 (expProtect 8 (expProtect 6 d))

/-- A port takes or gives up ownership (R299, R302, R310). -/
def setOwner (p : Nat) (v : Bool) (d : Dev) : Dev :=
  let x := portGet d p
  if x.owner = v then d
  else
    let d := portPut p { x with owner := v } d
    let d := if v then d else prtEvtBit p 1 d
    emit 0x4002 p (BitVec.ofNat 64 (b2n v + 256 * b2n x.protected_)) d

/-- Express cells that have an output slot but no unit wait again, ahead of those in the NIC; replays are dropped (R303,
R306). -/
def recallExpress (p : Nat) (d : Dev) : Dev :=
  let q := spGet [] d.rtr.outq p
  { d with rtr := { d.rtr with
      outq := spPut [] p (q.filter (fun e => e.2.cls != 0)) d.rtr.outq
      back := q.filter (fun e => e.2.cls == 0 && e.1 != ownInput) ++ d.rtr.back } }

/-- A trigger of R302 on a port: it is no longer eligible, its mirror is dropped, and it releases ownership (R302, R306). -/
def expTrigger (p : Nat) (d : Dev) : Dev :=
  if p < 6 ∨ 11 < p then d
  else
    let d := portMod p (fun x => { x with trigNow := true, mirror := [] }) d
    let d := if (portGet d p).owner then setOwner p false (recallExpress p d) else d
    expProtect (p / 2 * 2) d

/-- A port claims: mirrored cells that are not acknowledged go first, with replay = 1, where it is eligible (R303). -/
def expClaim (p : Nat) (d : Dev) : Dev :=
  let x := portGet d p
  let lo := p / 2 * 2
  if p < 6 ∨ 11 < p ∨ x.st ≠ .active ∨ x.k3 = true ∨ (portGet d lo).owner = true ∨ (portGet d (lo + 1)).owner = true then d
  else
    let lost := if expEligible d p then
        x.mirror.filter (fun m => decide ((m.1 - x.mirrorAck).toNat ≠ 0 ∧ (m.1 - x.mirrorAck).toNat < 2 ^ 15)) else []
    let cells := lost.map (fun m => { m.2 with replay := true })
    let d := cntAdd (prtBase p + 0x168) cells.length (cntInc (prtBase p + 0x158) d)
    let d := portMod p (fun x => { x with mirror := [] }) d
    let d := { d with rtr := { d.rtr with outq := spMod [] p (fun q => cells.map (fun c => (ownInput, c)) ++ q) d.rtr.outq } }
    expProtect lo (setOwner p true d)

/-- Ownership goes back to the primary (R305). -/
def expReturn (p : Nat) (d : Dev) : Dev :=
  let q := pairOf p
  if p < 6 ∨ 11 < p ∨ expPrimary d p ≠ p ∨ expEligible d p = false ∨ (portGet d q).owner = false then d
  else
    let d := setOwner q false (recallExpress q d)
    let d := portMod p (fun x => { x with mirror := [] }) d
    let d := prtEvtBit p 3 (cntInc (prtBase p + 0x160) (setOwner p true d))
    expProtect (p / 2 * 2) d

/-- Ownership at READY: the primary if eligible, otherwise the standby (R300). -/
def expAtReady (d : Dev) : Dev :=
  [6, 8, 10].foldl (fun d lo =>
    let a := expPrimary d lo
    let d := if expEligible d a then setOwner a true d else if expEligible d (pairOf a) then setOwner (pairOf a) true d else d
    expProtect lo d) d

/-! ### Transitions (R282) -/

/-- What a port forgets when it stops carrying units. -/
def Port.down (x : Port) : Port :=
  { x with
    lanes := 0, width := 0, retry := [], links := [], replayReq := none, beyond := [], goodRun := 0, credit := 0
    half := 0, mirror := [], identAt := none, owed := 0, rxPhase := 0, txPhase := 0, sent := none, line := [] }

/-- Places of staging that one end grants the other (R250, R295). -/
def stagingGrant : Nat := 16

/-- A port as it goes up: the first unit has useq 0 (R287, R288); a K3 partner has granted 16 places (R295), and an
endpoint grants all its places, and gets its 16, in CREDIT slots (R250; log entry 92). -/
def Port.fresh (x : Port) : Port :=
  { x with
    txSeq := 0, retry := [], rxAck := 0xFFFF, replayReq := none, ack := 0xFFFF, beyond := [], highest := 0xFFFF
    nak := 0xFFFF, credit := if isEndpoint x then 0 else stagingGrant, owed := if isEndpoint x then stagingGrant else 0
    mirrorAck := 0xFFFF, acctNow := 0, acctPrev := 0 }

/-- A transition: state, cause, PRT_EVT.state_change, its event, and what depends on it (R282, R438, R451). -/
def portTo (p : Nat) (st : PState) (cause : Option Nat) (d : Dev) : Dev :=
  let x := portGet d p
  if x.st = st then d
  else
    let x' := { x with st := st, cause := cause.getD x.cause }
    let d := emit 0x4001 p (BitVec.ofNat 64 (st.code + 256 * x'.cause)) (prtEvtBit p 0 (portPut p x' d))
    let d := if st = .active then { d with rtr := { d.rtr with removed := nsErase p d.rtr.removed } } else d
    topoAgain (expProtectAll (setDegraded 0 (portReduced d) d))

/-- The port carries nothing more: DETECT, RETRAIN, HELD, RETIRED or DISABLED. -/
def portDown (p : Nat) (st : PState) (cause : Option Nat) (d : Dev) : Dev :=
  portTo p st cause (portMod p Port.down d)

/-- DETECT, or RETIRED where fewer than 2 lanes are usable (R282, R294). -/
def portDetect (p : Nat) (cause : Option Nat) (d : Dev) : Dev :=
  if laneCount (usable d p) < 2 then portDown p .retired (some 0xE) d else portDown p .detect cause d

/-! ### Leaving ACTIVE (R291 to R294) -/

/-- Capacity of the detour buffer and the level that takes ports down (R290). -/
def detourCap : Nat := 2048
def detourHigh : Nat := 1536

/-- A cell enters the detour buffer (R290). -/
def detourAdd (p : Nat) (c : Cell) (d : Dev) : Dev :=
  cntInc (rtrBase + 0x48) { d with ports := { d.ports with detour := snoc d.ports.detour (p, c) } }

/-- Cells that have an output slot on a port but no unit yet are routed again (R256, R292); the port's own are dropped. -/
def reroute (p : Nat) (d : Dev) : Dev :=
  let q := spGet [] d.rtr.outq p
  { d with rtr := { d.rtr with
      outq := spPut [] p [] d.rtr.outq, back := q.filter (fun e => e.1 != ownInput) ++ d.rtr.back } }

/-- Cells of a unit's slots. -/
def slotCells (l : List USlot) : List Cell :=
  l.filterMap (fun x => match x with
    | .cell c => some c
    | .link _ _ _ => none)

/-- The cells of unacknowledged units are discarded and counted (R292). -/
def dropUnacked (p : Nat) (d : Dev) : Dev :=
  let n := (((portGet d p).retry.map (fun e => (slotCells e.slots).length)).sum)
  cntAdd (prtBase p + 0x140) n (portMod p (fun x => { x with retry := [] }) d)

/-- Ten minutes of powered time in ns. -/
def tenMinutes : Nat := 600 * 10 ^ 9

/-- A lane is retired: mask, defect list, PRT_EVT and event (R293). -/
def retireLane (p l : Nat) (d : Dev) : Dev :=
  let m : Nat := 2 ^ l
  let d := portMod p (fun x => { x with retired := setField x.retired l 1 1 }) d
  emit 0x4003 p (BitVec.ofNat 64 m) (prtEvtBit p 4 (addDefect 2 5 p (BitVec.ofNat 64 m) d))

/-- A retrain charged to a lane; the eighth within ten minutes retires it (R293). -/
def chargeLane (p l : Nat) (d : Dev) : Dev :=
  let now := d.tim.now
  let d := cntInc (prtBase p + 0x210 + 0x20 * l) d
  let d := portMod p (laneMod l (fun y =>
    { y with recent := now :: y.recent.filter (fun t => decide (now < t + tenMinutes)) })) d
  if 8 ≤ (laneGet (portGet d p) l).recent.length ∧ ((portGet d p).retired.getLsbD l) = false then retireLane p l d else d

/-- Retrains charged to the lanes of a mask. -/
def chargeLanes (p : Nat) (m : BitVec 4) (d : Dev) : Dev :=
  (List.range 4).foldl (fun d l => if m.getLsbD l then chargeLane p l d else d) d

/-- What every exit from ACTIVE does first: Express is given up, the exit is counted, cells without a unit are routed
again (R291, R292). -/
def leaveActive (p : Nat) (d : Dev) : Dev := reroute p (cntInc (prtBase p + 0x138) (expTrigger p d))

/-- An abrupt exit (R291, R292). -/
def exitAbrupt (p cause : Nat) (charge : BitVec 4) (d : Dev) : Dev :=
  if (portGet d p).st ≠ .active then d
  else
    let d := chargeLanes p charge (dropUnacked p (leaveActive p d))
    if laneCount (usable d p) < 2 then portDown p .retired (some 0xE) d
    else portDown p (if cause = 0xD then .detect else .retrain) (some cause) d

/-- A link slot (R278). -/
def linkSlot (ty : BitVec 4) (bytes : List Byte) : USlot := .link ty 0 (payloadOf bytes)

/-- A drained exit: RETRAIN_REQ is sent (R291). -/
def exitDrained (p cause : Nat) (charge : BitVec 4) (d : Dev) : Dev :=
  if (portGet d p).st ≠ .active then d
  else
    let d := chargeLanes p charge (leaveActive p d)
    let d := portMod p (fun x => { x with links := snoc x.links (linkSlot 2 [BitVec.ofNat 8 cause]) }) d
    if laneCount (usable d p) < 2 then portDown p .retired (some 0xE) (dropUnacked p d)
    else portTo p .drain (some cause) d

/-- A drain ends: what is unacknowledged is lost, and the port retrains or is disabled (R282, R292). -/
def drainEnd (p : Nat) (d : Dev) : Dev :=
  if (portGet d p).st ≠ .drain then d
  else
    let d := dropUnacked p d
    if portEnabled d p then portDown p .retrain none d else portDown p .disabled none d

/-- An Express cell that waits for a slot and has no port to leave on fails with link_down (R262, R303). -/
def failInjected (c : Cell) (s : State) : State :=
  let n := s.dev.nic
  let r := s.dev.rtr
  let d := cntInc (nicBase + 0x898) { s.dev with
    nic := { n with txq := n.txq.erase c }, rtr := { r with back := r.back.filter (fun e => e.2 != c) } }
  match outFind d c.dst.toNat c.ctx.toNat c.gen.toNat c.seq.toNat with
  | some o => if opNumbered c.op.toNat then cellFail o 1 0xFF { s with dev := dropOut o d } else { s with dev := d }
  | none => { s with dev := d }

/-- The items of Express cells that no port can take, now or after a claim, fail (R303). -/
def afterExit (s : State) : State :=
  let s := failExpress s
  (s.dev.rtr.back.map (·.2) ++ s.dev.nic.txq).foldl (fun s c =>
    if c.cls = 0 ∧ expRoute s.dev c.dst.toNat = false then failInjected c s else s) s

/-- The lane with the most uncorrectable codewords in the last closed power windows and the open one, the lowest on a
tie; none where no lane had any (R291). -/
def worstLane (x : Port) (windows : Nat) (open_ : Bool) : BitVec 4 :=
  let n (l : Nat) : Nat := ((laneGet x l).uncorrHist.take windows).sum + (if open_ then (laneGet x l).uncorr else 0)
  let best := (List.range 4).foldl (fun b l => if n b < n l then l else b) 0
  if n best = 0 then 0 else setField (0 : BitVec 4) best 1 1

/-! ### Identity and admission (R286, R465) -/

/-- The partner's identity agrees with another in everything but the incarnation and its lanes (R286). -/
def sameIdent (a b : Ident) : Bool :=
  a.node == b.node && a.boardSlot == b.boardSlot && a.trayId == b.trayId && a.port == b.port && a.kind == b.kind &&
    a.plane == b.plane

/-- The place in the rack or on the board is not the partner's (R286 case 1). -/
def identMisplaced (p : Nat) (i : Ident) : Bool :=
  (i.kind == 2 && decide (p ≤ 11)) ||
  (decide (6 ≤ p ∧ p ≤ 11) && !(i.kind == 1 && i.plane.toNat + 6 == p)) ||
  (decide (p ≤ 5) && !(i.kind == 0 || i.kind == 3))

/-- K3 is not allowed, or the partner lacks the mode it needs (R286 case 2, R295). -/
def identModeBad (d : Dev) (p : Nat) (i : Ident) : Bool :=
  (i.kind == 3 && (!(k3Allow d p) || (!(i.modes.getLsbD 1) && !(i.modes.getLsbD 0)))) ||
  (decide (i.kind.toNat ≤ 1) && !(i.modes.getLsbD 0))

/-- Lanes of a port up: the lowest of those usable at both ends, within both limits (R286). -/
def decideLanes (d : Dev) (p : Nat) (i : Ident) : BitVec 4 :=
  lowestLanes (min (widthLimit d p) i.widthLimit.toNat) (usable d p &&& i.lanes)

/-- The port becomes ACTIVE. -/
def portActive (p : Nat) (d : Dev) : Dev := portTo p .active none d

/-- The port was admitted for the incarnation of its partner (R465). -/
def portIsAdmitted (d : Dev) (p : Nat) (inc : W32) : Bool :=
  isAdmitted d && inc != 0 && spGet 0 d.health.portAdmitted p == inc

/-- The decision on leaving IDENTIFY (R286). -/
def identDecide (p : Nat) (i : Ident) (d : Dev) : Dev :=
  if identMisplaced p i then portDown p .held (some 4) d
  else if identModeBad d p i then portDown p .held (some 6) d
  else
    let lanes := decideLanes d p i
    if laneCount (usable d p &&& i.lanes) < 2 then portDown p .retired (some 0xE) d
    else
      let d := portMod p (fun x => { x.fresh with
        lanes := lanes, width := laneCount lanes, k3 := i.kind == 3 && i.modes.getLsbD 1 }) d
      if !(isAdmitted d) then portTo p .admitWait none d
      else
        match (portGet d p).heldId with
        | none => portTo p .admitWait none d
        | some h =>
          if !(sameIdent h i) then portDown p .held (some 5) d
          else if h.incarnation = i.incarnation then portActive p d
          else portTo p .admitWait none d

/-- An admitted port in ADMIT_WAIT becomes ACTIVE, and its partner's identity is held (R286, R465). -/
def portAdmitNow (p : Nat) (d : Dev) : Dev := portActive p (portMod p (fun x => { x with heldId := x.ident }) d)

/-- A stored admission applies when an IDENT matches it (R465). -/
def applyStored (p : Nat) (i : Ident) (d : Dev) : Dev :=
  if spGet 0 d.health.portAdmitStored p = i.incarnation ∧ i.incarnation ≠ 0 then
    { d with health := { d.health with
        portAdmitted := spPut 0 p i.incarnation d.health.portAdmitted
        portAdmitStored := spPut 0 p 0 d.health.portAdmitStored } }
  else d

/-- An IDENT link slot (R282, R286, R309, R465): recorded, and the state decided or an admission applied. -/
def identArrive (p : Nat) (i : Ident) (d : Dev) : Dev :=
  match (portGet d p).st with
  | .identify => identDecide p i (portMod p (fun x => { x with ident := some i }) d)
  | .admitWait =>
    let d := applyStored p i (portMod p (fun x => { x with ident := some i }) d)
    if portIsAdmitted d p i.incarnation then portAdmitNow p d else topoAgain d
  | _ => portMod p (fun x => { x with ident := some i }) d

/-- A link slot that is ignored (R278). -/
def linkBad (p : Nat) (d : Dev) : Dev := cntInc (prtBase p + 0x148) d

/-- A port state in which units arrive (R281). -/
def unitState (st : PState) : Bool :=
  st == .align || st == .identify || st == .admitWait || st == .active || st == .drain

/-- An IDENT link slot by its payload. -/
def identSlot (p : Nat) (b : BitVec 512) (d : Dev) : Dev :=
  if !(unitState (portGet d p).st) then d
  else
    match identOf b with
    | some i => if identValid i then identArrive p i d else d
    | none => linkBad p d

/-- RETRAIN_REQ arrives (R291). -/
def retrainReq (p : Nat) (d : Dev) : Dev := exitDrained p 0xC 0 d

/-- Staging credit comes back (R278, R295). -/
def creditArrive (p n : Nat) (d : Dev) : Dev :=
  if 1 ≤ n ∧ n ≤ 256 then portMod p (fun x => { x with credit := x.credit + n }) d else linkBad p d

/-! ### Objects that act on ports (R282, R293, R313) -/

/-- port_enable takes a new value: cleared ports drain or stop, set ones look for a partner (R282). -/
def portEnableAct (mask : Nat) (d : Dev) : Dev :=
  let m : BitVec 16 := BitVec.ofNat 16 mask
  let d := objPut 0x440001 mask d
  (List.range 16).foldl (fun d p =>
    let st := (portGet d p).st
    if m.getLsbD p then
      if st = .disabled ∧ 5 ≤ d.rst.step ∧ isLive d = true then portDetect p none d else d
    else if st = .disabled ∨ st = .retired ∨ st = .drain then d
    else if st = .active then exitDrained p 1 0 d
    else portDown p .disabled none d) d

/-- port_retrain: the port drains and retrains, or leaves HELD; none where its state refuses it (R282, R313). -/
def portRetrainAct (p : Nat) (d : Dev) : Option Dev :=
  match (portGet d p).st with
  | .active => some (exitDrained p 1 0 d)
  | .held => some (portDetect p none d)
  | _ => none

/-- Lanes return to use (R282, R293). -/
def laneUnretireAct (p : Nat) (m : BitVec 4) (d : Dev) : Dev :=
  let keep (e : Defect) : Defect := if e.kind = 2 ∧ e.unit = p then
      { e with detail := e.detail &&& ~~~(m.setWidth 64) } else e
  let d := { d with health := { d.health with
    defects := (d.health.defects.map keep).filter (fun e => !(e.kind == 2 && e.detail == 0))
    defectSeq := d.health.defectSeq + 1, defectInc := d.rst.incarnation } }
  let d := portMod p (fun x => (List.range 4).foldl (fun x l =>
    if m.getLsbD l then laneMod l (fun y => { y with recent := [] }) x else x) { x with retired := x.retired &&& ~~~m }) d
  if (portGet d p).st = .retired ∧ 2 ≤ laneCount (usable d p) then portDown p .detect none d else d

/-- A port_admit write: admitted for the incarnation of the present IDENT, or stored (R465). -/
def portAdmitAct (p : Nat) (inc : W32) (d : Dev) : Dev :=
  let now := match (portGet d p).ident with
    | some i => i.incarnation == inc
    | none => false
  if now then { d with health := { d.health with portAdmitted := spPut 0 p inc d.health.portAdmitted } }
  else { d with health := { d.health with portAdmitStored := spPut 0 p inc d.health.portAdmitStored } }

/-! ### Release and reset (R282, R419, R439) -/

/-- Every port at reset, its retired lanes from the defect list. -/
def resetPorts (d : Dev) : Dev :=
  let d := { d with ports := { d.ports with port := [], detour := [], k3Filter := [] } }
  (List.range 16).foldl (fun d p => portMod p (fun x => { x with retired := lanesListed d p }) d) d

/-- The port tiles are released: enabled ports look for their partners (R282, R419). -/
def releasePorts (d : Dev) : Dev :=
  (List.range 16).foldl (fun d p =>
    if laneCount (usable d p) < 2 then portDown p .retired (some 0xE) d
    else if portEnabled d p then portDown p .detect none d else d) (resetPorts d)

/-- Admission makes the ports ACTIVE and holds their identities (R286, R439). -/
def admitPorts (d : Dev) : Dev :=
  (List.range 16).foldl (fun d p =>
    if (portGet d p).st = .admitWait then portAdmitNow p d else d) d

end Sys2Proof.Machine
end

