-- ==== Sys2Proof/Machine/Port.lean ====
section
/-! DEFINITION. Units, link slots, training and the exits from ACTIVE: the commands of the ports (R272 to R306). -/

namespace Sys2Proof.Machine

/-! ### Units (R276 to R279, R287 to R289) -/

/-- A good unit: 32 slots, every codeword decoded, and the check sum right (R277). -/
def unitGood (u : UnitIn) : Bool := u.slots.length == 32 && !(u.uncorr.contains true) && u.crc == unitCrc u

/-- The active lanes of a port, lowest first. -/
def activeLanes (x : Port) : List Nat := (List.range 4).filter (fun i => x.lanes.getLsbD i)

/-- The lane that carries codeword `k` of a unit (R276). -/
def laneOfCw (x : Port) (k : Nat) : Nat :=
  let l := activeLanes x
  l[(x.rxPhase + k) % (max 1 l.length)]?.getD 0

/-- A codeword's corrected symbols and its failure are charged to its lane, and the lane's runs go on (R277, R284). -/
def countCw (p k corr : Nat) (uncorr : Bool) (d : Dev) : Dev :=
  let l := laneOfCw (portGet d p) k
  let d := cntAdd (prtBase p + 0x200 + 0x20 * l) corr d
  let d := cntIf uncorr (prtBase p + 0x208 + 0x20 * l) d
  portMod p (laneMod l (fun y => { y with
    corr := y.corr + corr, uncorr := y.uncorr + b2n uncorr
    okRun := if uncorr then 0 else y.okRun + 1, badRun := if uncorr then y.badRun + 1 else 0 })) d

/-- A lane's corrected symbols exceed fec_ser_limit within the window: a trigger of R302 as a lane comes to exceed it, and
where the window has had none. -/
def fecOver (limit : Nat) (x y : Port) : Bool :=
  (List.range 4).any (fun l => decide (limit < (laneGet y l).corr ∧ ((laneGet x l).corr ≤ limit ∨ x.trigNow = false)))

/-- The four codewords of a unit are counted. -/
def countUnit (p : Nat) (u : UnitIn) (d : Dev) : Dev :=
  let x := portGet d p
  let d := (List.range 4).foldl (fun d k => countCw p k (u.corr[k]?.getD 0) (u.uncorr[k]?.getD false) d) d
  let d := portMod p (fun x => { x with rxPhase := (x.rxPhase + 4) % max 1 (laneCount x.lanes) }) d
  if fecOver (objGet d 0x440007) x (portGet d p) then expTrigger p d else d

/-- Lanes that lose lock or signal within the same 64 hub cycles (R284, R291): an abrupt exit, charged to each where
another active lane keeps it. -/
def laneLoss (p : Nat) (lanes : BitVec 4) (d : Dev) : Dev :=
  let d := portMod p (fun x => (List.range 4).foldl (fun x l =>
    if lanes.getLsbD l then laneMod l (fun y => { y with locked := false, okRun := 0, badRun := 0 }) x else x) x) d
  let x := portGet d p
  let hit := lanes &&& x.lanes
  if hit = 0 then d else exitAbrupt p 7 (if hit = x.lanes then 0 else hit) d

/-- Lock by codewords: a lane locks at 8 consecutive ones that decode, and loses it at 4 that cannot be corrected
(R284). -/
def lockRuns (p : Nat) (d : Dev) : Dev :=
  let x := portGet d p
  let gone := lanesWith x x.lanes (fun y => y.locked && decide (4 ≤ y.badRun))
  let d := portMod p (fun x => (activeLanes x).foldl (fun x l =>
    laneMod l (fun y => { y with locked := y.locked || decide (8 ≤ y.okRun) }) x) x) d
  if gone = 0 then d else laneLoss p gone d

/-- Distance of a sequence number beyond another. -/
def seqAhead (a b : BitVec 16) : Nat := (a - b).toNat

/-- The cumulative ack moves over units that have arrived (R288). -/
def ackMove : Nat → Port → Port
  | 0, x => x
  | n + 1, x =>
    if x.beyond.contains (x.ack + 1) then
      ackMove n { x with ack := x.ack + 1, beyond := x.beyond.filter (fun q => q != x.ack + 1) }
    else x

/-- The nak that goes with the receive state: the oldest missing unit, or ack (R288). -/
def nakOf (x : Port) : BitVec 16 := if x.highest = x.ack then x.ack else x.ack + 1

/-- The nak follows; a change to a missing unit is counted (R288). -/
def nakUpdate (p : Nat) (d : Dev) : Dev :=
  let x := portGet d p
  let n := nakOf x
  let d := portPut p { x with nak := n } d
  cntIf (n != x.ack && n != x.nak) (prtBase p + 0x120) d

/-- A bad unit: counted; it is missing unless one is missing already (R277, R288). -/
def unitBad (p : Nat) (d : Dev) : Dev :=
  let d := cntInc (prtBase p + 0x110) d
  let x := portGet d p
  let d := portPut p { x with badUnits := x.badUnits + 1, goodRun := 0 } d
  let limit := objGet d 0x440008
  let d := if limit ≤ x.badUnits ∧ (x.badUnits = limit ∨ x.trigNow = false) then expTrigger p d else d
  let x := portGet d p
  if portTrained x && !x.k3 then
    nakUpdate p (portMod p (fun x => if x.highest = x.ack then { x with highest := x.highest + 1 } else x) d)
  else d

/-- A native unit may be accepted (R288). -/
def unitNew (x : Port) (q : BitVec 16) : Bool :=
  decide (1 ≤ seqAhead q x.ack ∧ seqAhead q x.ack ≤ 25) && !(x.beyond.contains q)

/-- A unit is received: ack, the units beyond it and nak follow (R288). -/
def unitTake (p : Nat) (q : BitVec 16) (d : Dev) : Dev :=
  nakUpdate p (portMod p (fun x =>
    let hi := if seqAhead x.highest x.ack < seqAhead q x.ack then q else x.highest
    ackMove 26 { x with beyond := q :: x.beyond, highest := hi }) d)

/-- Entries that an ack covers are freed (R289). -/
def ackFree (p : Nat) (a : BitVec 16) (d : Dev) : Dev :=
  portMod p (fun x => { x with
    rxAck := a, retry := x.retry.filter (fun e => decide (seqAhead a e.useq ≥ 2 ^ 15)) }) d

/-- The reverse direction's ack and nak (R289): the named unit is sent again as the next one, unless it went again within
the last 25 units; after its fourth repetition the port leaves ACTIVE. The pair partner's mirror takes the ack (R301). -/
def ackNak (p : Nat) (u : UnitIn) (d : Dev) : Dev :=
  let d := ackFree p u.ack d
  let d := if (portGet d p).owner && (portGet d p).protected_ then
      portMod (pairOf p) (fun x => { x with mirrorAck := u.ack }) d else d
  if u.nak = u.ack then d
  else
    match (portGet d p).retry.find? (fun e => e.useq == u.nak) with
    | none => d
    | some e =>
      if 4 ≤ e.reps then exitAbrupt p 0xA (worstLane (portGet d p) 0 true) d
      else if e.reps ≠ 0 ∧ e.since < 25 then d
      else portMod p (fun x => { x with replayReq := some u.nak }) d

/-! ### Cells and link slots of a unit -/

/-- The module's own cells among those a port has lost are marked, for DEPART decides their items' status (R292). -/
def markLost (l : List Cell) (d : Dev) : Dev :=
  let lost (o : OutCell) : Bool := l.any (fun c => c.src == d.rtr.node && c.dst == o.cell.dst && c.ctx == o.cell.ctx &&
    c.gen == o.cell.gen && c.seq == o.cell.seq && c.op == o.cell.op)
  { d with nic := { d.nic with resend := d.nic.resend.map (fun o => if lost o then { o with lostDepart := true } else o) } }

/-- DEPART arrives (R256, R292). -/
def departArrive (q : Nat) (c : Cell) (d : Dev) : Dev :=
  let known := match (portGet d q).ident with
    | some i => i.node == c.src
    | none => false
  if !known then cntInc (rtrBase + 0x38) d
  else
    let n := c.src.toNat
    let d := cntInc (rtrBase + 0x30) d
    let d := { d with rtr := { d.rtr with removed := nsInsert q d.rtr.removed } }
    let e := routeEntry d n
    let d := { d with rtr := { d.rtr with table := spPut 0 n (setField e 62 1 1) d.rtr.table } }
    let other (p : Nat) : Bool := p != q && portUp d p
    let stuck := !(other (fieldN e 61 57)) && !(e.getLsbD 51 && other (fieldN e 56 52))
    let gone (c : Cell) : Bool := stuck && c.dst.toNat == n && !c.bounce
    let d := (List.range 16).foldl (fun d p =>
      let l := spGet [] d.rtr.staging p
      let k := (l.filter gone).length
      let l' := l.map (fun c => if gone c then noticeOf 5 c else c)
      cntAdd (rtrBase + 0x18) k { d with rtr := { d.rtr with staging := spPut [] p l' d.rtr.staging } }) d
    exitAbrupt q 0xD 0 (markLost ((portGet d q).retry.flatMap (fun e => slotCells e.slots)) d)

/-- A link-local cell is consumed by its op (R30, R240). -/
def localCell (p : Nat) (c : Cell) (d : Dev) : Dev :=
  if c.op = 0x3C then departArrive p c d
  else if c.op = 0x3E ∨ c.op = 0x3F then
    if 6 ≤ p ∧ p ≤ 11 ∧ c.op = 0x3E then timeSyncArrive (p - 6) c d else timeCellDiscard c d
  else d

/-- The ops a context originates, which check 2 of R258 covers. -/
def opOriginated (op : Nat) : Bool :=
  decide ((1 ≤ op ∧ op ≤ 5) ∨ op = 8 ∨ op = 0xA ∨ (0x10 ≤ op ∧ op ≤ 0x12) ∨ op = 0x18)

/-- Check 2 of R258 fails for a cell of a partition. -/
def partDenied (e : W64) (c : Cell) (part : Nat) : Bool :=
  opOriginated c.op.toNat && !c.bounce && !(e.getLsbD part)

/-- The partition of an edge port's endpoint (R258). -/
def edgePartition (d : Dev) (p : Nat) : Nat := ((blobGet d 0x420006 [0, 0, 0, 0])[p - 12]?.getD 0).toNat

/-- What becomes of a cell before it is routed. -/
inductive RFate where
  | route
  /-- Discarded, with a counter. -/
  | lost (cnt : Nat)
  /-- Bounced with a cause, with a counter. -/
  | bounced (cause cnt : Nat)
  deriving DecidableEq, Repr

/-- A notice is never bounced again (R253). -/
def bounceOr (c : Cell) (cause cnt : Nat) : RFate := if c.bounce then .lost (rtrBase + 0x20) else .bounced cause cnt

/-- The fate of a cell as it arrives: reserved nodes (R239), a Withdraw under way (R257), and the ingress checks of a cell
from an endpoint (R258). -/
def arriveFate (d : Dev) (p : Nat) (c : Cell) : RFate :=
  let e := routeEntry d c.dst.toNat
  if c.dst = 0xFFF ∨ c.src = 0xFFF then .lost (rtrBase + 0x10)
  else if d.rst.withdraw.isSome && !c.bounce then .bounced 6 (rtrBase + 0x40)
  else if endpointPort d p && !(e.getLsbD 63) then bounceOr c 4 (rtrBase + 0x10)
  else if endpointPort d p && partDenied e c (edgePartition d p) then .bounced 1 (nicBase + 0x848)
  else .route

/-- A cell takes a place in the staging of its input. -/
def stage (p : Nat) (c : Cell) (d : Dev) : Dev :=
  { d with rtr := { d.rtr with staging := spMod [] p (fun l => snoc l c) d.rtr.staging } }

/-- A cell of an accepted unit: link-local ones are consumed, and the others staged, bounced or discarded (R239, R240,
R257, R258, R281); one that takes no place in staging gives its credit back (R295). -/
def cellArrive (p : Nat) (c : Cell) (d : Dev) : Dev :=
  if 0x3C ≤ c.op.toNat then localCell p c (stagingFree p (cntInc (rtrBase + 0x1000 + 0x100 * p) d))
  else if (portGet d p).st = .admitWait then stagingFree p (cntInc (prtBase p + 0x150) d)
  else
    let d := cntInc (rtrBase + 0x1000 + 0x100 * p) d
    let d := portMod p (fun x => { x with lastIn := some d.rtr.cycle }) d
    match arriveFate d p c with
    | .route => stage p c d
    | .lost n => stagingFree p (cntInc n d)
    | .bounced cause n => stage p (noticeOf cause c) (cntInc n d)

/-- A link slot (R278). -/
def linkArrive (p : Nat) (ty : BitVec 4) (rest : BitVec 112) (b : BitVec 512) (d : Dev) : Dev :=
  if rest ≠ 0 then linkBad p d
  else
    match ty.toNat with
    | 0 => if b = 0 then d else linkBad p d
    | 1 => identSlot p b d
    | 2 => if fieldN b 511 8 = 0 then retrainReq p d else linkBad p d
    | 3 => if fieldN b 511 16 = 0 then creditArrive p (fieldN b 15 0) d else linkBad p d
    | _ => linkBad p d

/-- A slot of an accepted unit. -/
def slotArrive (p : Nat) (x : USlot) (d : Dev) : Dev :=
  match x with
  | .cell c => cellArrive p c d
  | .link ty rest b => linkArrive p ty rest b d

/-- A unit's slots are taken; one with a cell for the router makes an admitted port ACTIVE (R465). -/
def unitSlots (p : Nat) (u : UnitIn) (d : Dev) : Dev :=
  let d := cntInc (prtBase p + 0x108) d
  let cells := (slotCells u.slots).any (fun c => decide (c.op.toNat < 0x3C))
  let adm := match (portGet d p).ident with
    | some i => portIsAdmitted d p i.incarnation
    | none => false
  let d := if (portGet d p).st = .admitWait ∧ (cells && adm) = true then portAdmitNow p d else d
  u.slots.foldl (fun d x => slotArrive p x d) d

/-- ALIGN ends once every active lane is locked and 16 good units have come (R282). -/
def alignDone (p : Nat) (d : Dev) : Dev :=
  let x := portGet d p
  if x.st = .align ∧ 16 ≤ x.goodRun ∧ lanesAll x x.lanes Lane.locked = true then portTo p .identify none d else d

/-- The link slots of a unit that carries no cells (R281). -/
def linkSlots (p : Nat) (u : UnitIn) (d : Dev) : Dev :=
  u.slots.foldl (fun d x => match x with
    | .link ty rest b => linkArrive p ty rest b d
    | .cell _ => d) d

/-- A unit arrives (R277, R288). -/
def unitReceive (p : Nat) (u : UnitIn) (d : Dev) : Dev :=
  let st := (portGet d p).st
  if !(unitState st) then d
  else
    let d := lockRuns p (countUnit p u d)
    if !(unitGood u) then unitBad p d
    else
      match st with
      | .align => alignDone p (portMod p (fun x => { x with goodRun := x.goodRun + 1 }) (linkSlots p u d))
      | .identify => linkSlots p u (cntInc (prtBase p + 0x108) d)
      | _ =>
        if (portGet d p).k3 then unitSlots p u d
        else
          let d := ackNak p u d
          if !(unitNew (portGet d p) u.useq) then cntInc (prtBase p + 0x118) d
          else unitSlots p u (unitTake p u.useq d)

/-! ### The transmitter (R273, R285, R287, R289, R295, R301) -/

/-- Units the retry buffer holds (R287). -/
def retryCap : Nat := 25

/-- A unit goes onto the lanes, with the ack and nak of the moment, or 0 on a K3 port (R276, R289, R295). -/
def putUnit (useq : BitVec 16) (slots : List USlot) (x : Port) : Port :=
  let u := formUnit useq (if x.k3 then 0 else x.ack) (if x.k3 then 0 else x.nak) slots
  { x with
    sent := some u, line := unitLine (activeLanes x) x.txPhase u, txPhase := (x.txPhase + 4) % max 1 (laneCount x.lanes) }

/-- A unit of the retry buffer is sent again (R289). -/
def sendAgain (p : Nat) (e : RetryEnt) (d : Dev) : Dev :=
  let d := cntInc (prtBase p + 0x128) d
  portMod p (fun x => putUnit e.useq e.slots { x with
    replayReq := none
    retry := x.retry.map (fun y => if y.useq = e.useq then { y with reps := y.reps + 1, since := 0 } else { y with since := y.since + 1 }) }) d

/-- An IDENT is due: every 1 ms in IDENTIFY, once per 2^20 ns while ACTIVE (R285). -/
def identDue (d : Dev) (x : Port) : Bool :=
  match x.st, x.identAt with
  | .identify, none => true
  | .identify, some t => decide (t + 10 ^ 6 ≤ d.tim.now)
  | .active, none => true
  | .active, some t => decide (t + 2 ^ 20 ≤ d.tim.now)
  | _, _ => false

/-- The link slots of the next unit: what waits, the IDENT that is due, and credit to return (R278, R285, R295). -/
def linksNow (d : Dev) (p : Nat) (x : Port) : List USlot :=
  x.links ++ (if identDue d x then [.link 1 0 (identBlock (ownIdent d p))] else []) ++
    (if 0 < x.owed then [linkSlot 3 (leBytes 2 (min 256 x.owed))] else [])

/-- Cells that may go in the next unit from the port's queue (R281, R295). -/
def cellsNow (x : Port) (q : List (Nat × Cell)) (room : Nat) : List (Nat × Cell) :=
  let q := if x.k3 then q.filter (fun e => e.2.k3) else q
  let room := if byCredit x then min room x.credit else room
  match x.st with
  | .active => q.take room
  | .admitWait => (q.filter (fun e => decide (0x3C ≤ e.2.op.toNat))).take room
  | _ => []

/-- A cell leaves on a port: it is counted, one of another input loses a hop, and a TIME_REQ gets its stamp (R32, R249,
R252, R269). -/
def cellLeaves (p : Nat) (e : Nat × Cell) (d : Dev) : Cell × Dev :=
  let d := cntInc (rtrBase + 0x1008 + 0x100 * p) (cntIf (decide (e.1 < 16)) rtrBase d)
  let d := cntIf (e.2.cls == 0) (rtrBase + 0x1018 + 0x100 * p) d
  if e.1 ≠ ownInput then ({ e.2 with hops := e.2.hops - 1 }, d)
  else if e.2.op = 0x3F then timeReqLeaves (p - 6) e.2 d
  else (e.2, d)

/-- The cells of a unit leave in turn. -/
def cellsLeave (p : Nat) : List (Nat × Cell) → Dev → List Cell × Dev
  | [], d => ([], d)
  | e :: t, d =>
    let (c, d) := cellLeaves p e d
    let (l, d) := cellsLeave p t d
    (c :: l, d)

/-- Copies of Express cells placed in a unit go to the pair partner's mirror of 32, and into the window account of both
(R301). -/
def mirrorCells (p : Nat) (q : BitVec 16) (cells : List Cell) (d : Dev) : Dev :=
  let ex := cells.filter (fun c => c.cls == 0)
  let n := ex.length
  let win := d.tim.count.toNat / 1024
  let acct (x : Port) : Port :=
    if x.acctWin = win then { x with acctNow := x.acctNow + n }
    else { x with acctPrev := if x.acctWin + 1 = win then x.acctNow else 0, acctNow := n, acctWin := win }
  if !(portGet d p).owner then d
  else
    let d := portMod p acct d
    if !(portGet d p).protected_ then d
    else
      portMod (pairOf p) (fun x =>
        let m := x.mirror ++ ex.map (fun c => (q, c))
        acct { x with mirror := m.drop (m.length - 32) }) d

/-- A new unit is sent (R276, R287). -/
def sendNew (p : Nat) (d : Dev) : Dev :=
  let x := portGet d p
  let links := linksNow d p x
  let q := spGet [] d.rtr.outq p
  let now := cellsNow x q (32 - links.length)
  let d := { d with rtr := { d.rtr with outq := spPut [] p (now.foldl (fun l c => l.erase c) q) d.rtr.outq } }
  let (cells, d) := cellsLeave p now d
  let d := mirrorCells p x.txSeq cells d
  let used := if byCredit x then cells.length else 0
  let held := portTrained x && !x.k3
  let slots := links ++ cells.map USlot.cell
  cntInc (prtBase p + 0x100) (portMod p (fun y => putUnit x.txSeq slots { y with
    links := [], identAt := if identDue d x then some d.tim.now else y.identAt
    owed := y.owed - min 256 y.owed, credit := y.credit - used
    txSeq := if portTrained x then y.txSeq + 1 else y.txSeq
    retry := if held then snoc (y.retry.map (fun e => { e with since := e.since + 1 })) ⟨x.txSeq, slots, 0, 0⟩
        else y.retry }) d)

/-- The lanes of a port in EQUALIZE or RETRAIN repeat their training frames, what the receivers ask for drawn anew
(R284). -/
def sendFrames (p : Nat) (d : Dev) : Dev :=
  let (v, d) := drawFree d
  let lanes := (List.range 4).filter (fun l => (usable d p).getLsbD l)
  portMod p (fun x => { x with
    line := lanes.map (fun l => (l, pamLevels (frameBits (v >>> (16 * l)) l (laneGet x l)))) }) d

/-- The next unit of a port (R289): a unit named by a nak, though one new unit with a waiting Express cell goes first;
the oldest unit while the buffer is full; otherwise a new one. In training it is a training frame of each lane. -/
def unitTransmit (p : Nat) (d : Dev) : Dev :=
  let x := portGet d p
  if x.st = .equalize ∨ x.st = .retrain then sendFrames p d
  else if !(unitState x.st) then d
  else
    let express := (spGet [] d.rtr.outq p).any (fun e => e.2.cls == 0)
    let full := decide (retryCap ≤ x.retry.length)
    match x.replayReq with
    | some q =>
      if express && !full && x.st == .active then sendNew p d
      else
        (match x.retry.find? (fun e => e.useq == q) with
        | some e => sendAgain p e d
        | none => sendNew p (portMod p (fun y => { y with replayReq := none }) d))
    | none =>
      if full then (match x.retry with
        | e :: _ => sendAgain p e d
        | [] => d)
      else sendNew p d

/-- A link-local cell goes out in a unit of its own time: ahead of what waits, and at once where the retry buffer has room
(R256, R454, R461); a K3 port carries none (R295). -/
def sendLocal (p : Nat) (c : Cell) (d : Dev) : Dev :=
  let x := portGet d p
  if x.k3 then d
  else
    let d := { d with rtr := { d.rtr with outq := spMod [] p (fun q => (ownInput, c) :: q) d.rtr.outq } }
    if x.retry.length < retryCap then sendNew p d else d

/-! ### Training (R282, R284) -/

/-- Training starts afresh in EQUALIZE. -/
def freshLane (y : Lane) : Lane :=
  { y with
    pre2 := 0, pre1 := 0, post1 := 0, preset := 0, pre2St := 0, pre1St := 0, post1St := 0, rxReady := false, ready := false
    locked := false, okRun := 0, badRun := 0 }

/-- Signal on at least 2 usable lanes for 1 ms (R282). -/
def signalDetect (p : Nat) (lanes : BitVec 4) (d : Dev) : Dev :=
  if (portGet d p).st = .detect ∧ 2 ≤ laneCount (lanes &&& usable d p) then
    portTo p .equalize none (portMod p (lanesMod freshLane) d)
  else d

/-- A tap request (R284): 1 up, 2 down, within the tap's limit. With the new step goes the answer: 0 not updated, 1
updated, 2 at limit. -/
def tapStep (tap : Nat) (r : BitVec 2) (v : Int) : Int × BitVec 2 :=
  let w := if r = 1 then v + 1 else v - 1
  if r = 0 ∨ r = 3 then (v, 0)
  else if Config.tapLimit tap < w.natAbs ∧ v.natAbs < w.natAbs then (v, 2)
  else (w, 1)

/-- A training frame on a lane (R284). -/
def trainFrame (t : TrainFrame) (y : Lane) : Lane :=
  let y := { y with rxReady := t.rxReady }
  if t.presetValid then
    { y with preset := t.preset.toNat, pre2 := 0, pre1 := 0, post1 := 0, pre2St := 1, pre1St := 1, post1St := 1 }
  else
    let a := tapStep 0 t.pre2 y.pre2
    let b := tapStep 1 t.pre1 y.pre1
    let c := tapStep 2 t.post1 y.post1
    { y with pre2 := a.1, pre1 := b.1, post1 := c.1, pre2St := a.2, pre1St := b.2, post1St := c.2 }

/-- ALIGN with the lanes given. -/
def toAlign (p : Nat) (lanes : BitVec 4) (d : Dev) : Dev :=
  portTo p .align none (portMod p (fun x => { x with
    lanes := lanes, width := 0, goodRun := 0, rxPhase := 0, txPhase := 0, sent := none, line := [] }) d)

/-- A lane is ready at both ends; with every usable lane ready the port aligns (R282, R284). -/
def laneReady (p l : Nat) (d : Dev) : Dev :=
  let x := portGet d p
  if x.st = .equalize ∧ (laneGet x l).rxReady = true ∧ (usable d p).getLsbD l = true then
    let d := portMod p (laneMod l (fun y => { y with ready := true })) d
    if lanesAll (portGet d p) (usable d p) Lane.ready then toAlign p (usable d p) d else d
  else d

/-- 2,000 ms in EQUALIZE: the ready lanes align, or there are too few (R282). -/
def equalizeTimeout (p : Nat) (d : Dev) : Dev :=
  let x := portGet d p
  if x.st ≠ .equalize then d
  else
    let r := lanesWith x (usable d p) Lane.ready
    if 2 ≤ laneCount r then toAlign p r d else portDetect p (some 2) d

/-- A lane locks (R282, R284). -/
def laneLock (p l : Nat) (d : Dev) : Dev :=
  let st := (portGet d p).st
  if st = .retrain ∨ st = .align ∨ st = .equalize then
    let d := portMod p (laneMod l (fun y => { y with locked := true })) d
    if st = .retrain ∧ lanesAll (portGet d p) (usable d p) Lane.locked = true then toAlign p (usable d p) d
    else alignDone p d
  else d

/-! ### The commands -/

/-- An event of the port tiles, which are out of reset from step 5 of R419 on and unclocked in RECOVERY (R441). -/
def portEvent (f : Dev → Dev) (s : State) : Host.Outcome State Fault Refusal :=
  .next (if hubUp s.dev && decide (5 ≤ s.dev.rst.step) then afterExit { s with dev := f s.dev } else s)

/-- UNIT_RECEIVE (R288). -/
def execUnitReceive (port : Fin 16) (u : UnitIn) (s : State) : Host.Outcome State Fault Refusal :=
  portEvent (unitReceive port.val u) s

/-- UNIT_TRANSMIT (R289). -/
def execUnitTransmit (port : Fin 16) (s : State) : Host.Outcome State Fault Refusal := portEvent (unitTransmit port.val) s

/-- IDENT (R286): the link slot of an accepted unit. -/
def execIdent (port : Fin 16) (payload : BitVec 512) (s : State) : Host.Outcome State Fault Refusal :=
  portEvent (identSlot port.val payload) s

/-- RETRAIN_REQ (R291). -/
def execRetrainReq (port : Fin 16) (_cause : Byte) (s : State) : Host.Outcome State Fault Refusal :=
  portEvent (retrainReq port.val) s

/-- CREDIT (R295). -/
def execCredit (port : Fin 16) (n : BitVec 16) (s : State) : Host.Outcome State Fault Refusal :=
  portEvent (creditArrive port.val n.toNat) s

/-- TRAINING_FRAME (R284): one with another marker is no training frame. -/
def execTrainingFrame (port : Fin 16) (lane : Fin 4) (t : TrainFrame) (s : State) : Host.Outcome State Fault Refusal :=
  portEvent (fun d =>
    let st := (portGet d port.val).st
    if t.marker = 0x7E61B3C8 ∧ (st = .equalize ∨ st = .retrain) then portMod port.val (laneMod lane.val (trainFrame t)) d
    else d) s

/-- PORT_SIGNAL_DETECT (R282). -/
def execPortSignalDetect (port : Fin 16) (lanes : BitVec 4) (s : State) : Host.Outcome State Fault Refusal :=
  portEvent (signalDetect port.val lanes) s

/-- LANE_READY (R284). -/
def execLaneReady (port : Fin 16) (lane : Fin 4) (s : State) : Host.Outcome State Fault Refusal :=
  portEvent (laneReady port.val lane.val) s

/-- EQUALIZE_TIMEOUT (R282). -/
def execEqualizeTimeout (port : Fin 16) (s : State) : Host.Outcome State Fault Refusal := portEvent (equalizeTimeout port.val) s

/-- ALIGN_TIMEOUT (R282). -/
def execAlignTimeout (port : Fin 16) (s : State) : Host.Outcome State Fault Refusal :=
  portEvent (fun d => if (portGet d port.val).st = .align then portDetect port.val (some 3) (portMod port.val Port.down d) else d) s

/-- IDENTIFY_TIMEOUT (R282): no cause is named for it. -/
def execIdentifyTimeout (port : Fin 16) (s : State) : Host.Outcome State Fault Refusal :=
  portEvent (fun d => if (portGet d port.val).st = .identify then portDetect port.val none d else d) s

/-- RETRAIN_TIMEOUT (R282). -/
def execRetrainTimeout (port : Fin 16) (s : State) : Host.Outcome State Fault Refusal :=
  portEvent (fun d => if (portGet d port.val).st = .retrain then portDetect port.val none d else d) s

/-- DRAIN_END (R292). -/
def execDrainEnd (port : Fin 16) (s : State) : Host.Outcome State Fault Refusal := portEvent (drainEnd port.val) s

/-- LANE_LOSS (R291). -/
def execLaneLoss (port : Fin 16) (lanes : BitVec 4) (s : State) : Host.Outcome State Fault Refusal :=
  portEvent (laneLoss port.val lanes) s

/-- FEC_LIMIT (R291): the lane's corrected symbols were above the limit in each of 4 consecutive power windows. -/
def execFecLimit (port : Fin 16) (lane : Fin 4) (s : State) : Host.Outcome State Fault Refusal :=
  portEvent (fun d =>
    if 4 ≤ (laneGet (portGet d port.val) lane.val).fecRun then exitDrained port.val 8 (setField (0 : BitVec 4) lane.val 1 1) d
    else d) s

/-- RETRY_LIMIT (R291): bad units were above the limit in each of 4 consecutive power windows. -/
def execRetryLimit (port : Fin 16) (s : State) : Host.Outcome State Fault Refusal :=
  portEvent (fun d =>
    if 4 ≤ (portGet d port.val).retryRun then exitDrained port.val 9 (worstLane (portGet d port.val) 4 false) d else d) s

/-- ACK_TIMEOUT (R289): the retry buffer has been full for 1 µs. -/
def execAckTimeout (port : Fin 16) (s : State) : Host.Outcome State Fault Refusal :=
  portEvent (fun d => if retryCap ≤ (portGet d port.val).retry.length then exitAbrupt port.val 0xB 0 d else d) s

/-- FREQ_MISMATCH (R280): of a router partner. -/
def execFreqMismatch (port : Fin 16) (s : State) : Host.Outcome State Fault Refusal :=
  portEvent (fun d => if routerPartner (portGet d port.val) then exitAbrupt port.val 0x10 0 d else d) s

/-- EXP_CLAIM (R303). -/
def execExpClaim (port : Fin 16) (s : State) : Host.Outcome State Fault Refusal := portEvent (expClaim port.val) s

/-- EXP_HOLDOFF_EXPIRY (R305). -/
def execExpHoldoffExpiry (port : Fin 16) (s : State) : Host.Outcome State Fault Refusal := portEvent (expReturn port.val) s

/-- LANE_LOCK (R284). -/
def execLaneLock (port : Fin 16) (lane : Fin 4) (s : State) : Host.Outcome State Fault Refusal :=
  portEvent (laneLock port.val lane.val) s

/-- DEPART (R256): the cell arrives on a port that carries link-local cells. -/
def execDepart (port : Fin 16) (c : Cell) (s : State) : Host.Outcome State Fault Refusal :=
  portEvent (fun d => if portLocal d port.val then departArrive port.val c (cntInc (rtrBase + 0x1000 + 0x100 * port.val) d) else d) s

end Sys2Proof.Machine
end

