-- ==== Sys2Proof/Machine/Router.lean ====
section
/-! DEFINITION. One hub cycle of the router: CELL_ROUTE (R239, R241, R246 to R258, R290). -/

namespace Sys2Proof.Machine

/-! ### Cells that are turned into notices or discarded (R239, R249, R252 to R258) -/

/-- An output is productive for a cell and up (R257). -/
def productive (d : Dev) (e : W64) : Bool :=
  let ok (o : Nat) : Bool := o == 18 || (decide (o < 16) && portUp d o)
  ok (fieldN e 61 57) || (e.getLsbD 51 && ok (fieldN e 56 52))

/-- The fate of a staged cell of input port p (R249, R252, R254, R256 to R258). -/
def fateOf (d : Dev) (p : Nat) (c : Cell) : RFate :=
  let own := c.dst == d.rtr.node
  let e := routeEntry d c.dst.toNat
  if c.cls = 0 ∧ own = false then .bounced 8 (rtrBase + 0x58)
  else if c.hops = 0 ∧ own = false then bounceOr c 0 (rtrBase + 0x1020 + 0x100 * p)
  else if !(e.getLsbD 63) then bounceOr c 4 (rtrBase + 0x10)
  else if e.getLsbD 62 then bounceOr c 5 (rtrBase + 0x18)
  else if d.rst.withdraw.isSome && !c.bounce && !(productive d e) then .bounced 6 (rtrBase + 0x40)
  else .route

/-- A cell turned into a notice or discarded, in its place; the notice is routed like any cell, so it is discarded where
its own node has departed or has no entry (R253). -/
def screenCell (p : Nat) (c : Cell) (d : Dev) : Option Cell × Dev :=
  match fateOf d p c with
  | .route => (some c, d)
  | .lost n => (none, cntInc n d)
  | .bounced cause n =>
    match fateOf d p (noticeOf cause c) with
    | .lost m => (none, cntInc m (cntInc n d))
    | _ => (some (noticeOf cause c), cntInc n d)

/-- The first cells of a list screened. -/
def screenList (p : Nat) : Nat → List Cell → Dev → List Cell × Dev
  | 0, l, d => (l, d)
  | _, [], d => ([], d)
  | n + 1, c :: t, d =>
    let (r, d) := screenCell p c d
    let d := if r.isNone then stagingFree p d else d
    let (l, d) := screenList p n t d
    (r.toList ++ l, d)

/-- Cells a staging slot holds (R249). -/
def stagingCap : Nat := 4

/-- The cells of a list outside staging screened. -/
def screenKept : List (Nat × Cell) → Dev → List (Nat × Cell) × Dev
  | [], d => ([], d)
  | x :: t, d =>
    let (r, d) := screenCell x.1 x.2 d
    let (l, d) := screenKept t d
    ((r.toList.map (fun c => (x.1, c))) ++ l, d)

/-- A cell that a route turns into a notice; an Express cell of the NIC's own waits for its port and is in no transit. -/
def keptFate (x : Nat × Cell) : Bool := x.1 != 18 || x.2.cls != 0

/-- Every input's staged cells, those of the detour buffer and those to be routed again screened. -/
def screenAll (d : Dev) : Dev :=
  let d := (List.range 16).foldl (fun d p =>
    let (l, d) := screenList p stagingCap (spGet [] d.rtr.staging p) d
    { d with rtr := { d.rtr with staging := spPut [] p l d.rtr.staging } }) d
  let (l, d) := screenKept d.ports.detour d
  let d := { d with ports := { d.ports with detour := l } }
  let (l, d) := screenKept (d.rtr.back.filter keptFate) d
  { d with rtr := { d.rtr with back := d.rtr.back.filter (fun x => !(keptFate x)) ++ l } }

/-- The ingress checks of a cell the NIC injects; its notice goes straight back (R258). -/
def ingress (c : Cell) (d : Dev) : Dev :=
  let e := routeEntry d c.dst.toNat
  let part := (slotOf d (cellCtx c)).map (ctxPartition d)
  let back (cause cnt : Nat) : Dev :=
    let d := cntInc cnt { d with nic := { d.nic with txq := d.nic.txq.erase c } }
    if c.bounce then cntInc (rtrBase + 0x20) d
    else { d with rtr := { d.rtr with toNic := snoc d.rtr.toNic (noticeOf cause c) } }
  if c.dst = 0xFFF ∨ c.src = 0xFFF then cntInc (rtrBase + 0x10) { d with nic := { d.nic with txq := d.nic.txq.erase c } }
  else if !(e.getLsbD 63) then back 4 (rtrBase + 0x10)
  else if (match part with
      | some q => partDenied e c q
      | none => false) then back 1 (nicBase + 0x848)
  else if e.getLsbD 62 then back 5 (rtrBase + 0x18)
  else d

/-- Injections the NIC offers in a hub cycle (R246). -/
def injectCap : Nat := 16

/-- The NIC's Express or other cells next in line, as many as may enter in one hub cycle. -/
def offered (d : Dev) (express : Bool) : List Cell :=
  (d.nic.txq.filter (fun c => (c.cls == 0) == express)).take injectCap

/-- The cells the NIC offers checked; those that pass may enter. -/
def ingressAll (d : Dev) : List Cell × Dev :=
  if d.nic.stopped then ([], d)
  else (offered d true ++ offered d false).foldl (fun (l, d) c =>
    let d' := ingress c d
    (if d'.nic.txq.length < d.nic.txq.length then l else snoc l c, d')) ([], d)

/-! ### Output slots (R246, R250, R273, R290) -/

/-- The output withholds its slots: the retry buffer is full, or a unit is to be sent again (R289, R290). -/
def withholds (x : Port) : Bool := decide (retryCap ≤ x.retry.length) || x.replayReq.isSome || x.st == .drain

/-- Cell slots of an external port in this cycle; with a unit to be sent again only Express cells get them, for one new unit
with a waiting Express cell goes first (R289). -/
def portSlots (d : Dev) (p : Nat) : Nat :=
  let x := portGet d p
  let q := (spGet [] d.rtr.outq p).length
  if !(portUp d p) || decide (retryCap ≤ x.retry.length) then 0
  else
    let n := min ((x.half + x.width) / 2) (32 - q)
    if byCredit x then min n (x.credit - q) else n

/-- The half slot carried over, the stall counted, and the withheld cycle noted (R273, R289, R290). -/
def portCycle (p : Nat) (d : Dev) : Dev :=
  let x := portGet d p
  let stall := portTrained x && decide (retryCap ≤ x.retry.length)
  let d := cntIf stall (prtBase p + 0x130) d
  portMod p (fun x => { x with
    half := if x.st = .active then (x.half + x.width) % 2 else 0
    withheld := if (portTrained x && withholds x) = true then some d.rtr.cycle else x.withheld }) d

/-- A deflection output (R250). -/
def deflectOut (d : Dev) (p : Nat) : Bool := portUp d p && !(portGet d p).k3 && routerPartner (portGet d p)

/-! ### Arbitration (R249) -/

/-- Where a cell waits that asks for a slot: staging, the NIC, the detour buffer, or among those to be routed again. -/
inductive Place where
  | staging | nic | detour | back
  deriving DecidableEq, Repr

/-- A cell that asks for a slot, with the input port it came in on. -/
structure Cand where
  inp : Nat
  place : Place
  cell : Cell
  deriving DecidableEq, Repr

/-- Age: lower hops, then lower class, then lower input port first. -/
def Cand.age (c : Cand) : Nat := c.cell.hops.toNat * 128 + c.cell.cls.toNat * 32 + c.inp

/-- Insertion behind the cells that are not younger. -/
def insCand (c : Cand) : List Cand → List Cand
  | [] => [c]
  | x :: t => if c.age < x.age then c :: x :: t else x :: insCand c t

/-- Oldest first. -/
def byAge (l : List Cand) : List Cand := l.foldl (fun acc c => insCand c acc) []

/-- The slots left in this cycle, and the module. -/
structure Arb where
  d : Dev
  slots : Sparse Nat
  deriving DecidableEq, Repr

def slotsLeft (a : Arb) (o : Nat) : Nat := spGet 0 a.slots o

/-- The output has a slot for a cell: a K3 port carries k3 cells alone (R295), a port with a unit to be sent again Express
cells alone (R289). -/
def hasSlot (a : Arb) (o : Nat) (c : Cell) : Bool :=
  decide (0 < slotsLeft a o) &&
    (o == 18 || ((!(portGet a.d o).k3 || c.k3) && ((portGet a.d o).replayReq.isNone || c.cls == 0)))

/-- The ops a NIC knows (R240). -/
def opKnown (op : Nat) : Bool :=
  decide ((1 ≤ op ∧ op ≤ 5) ∨ (8 ≤ op ∧ op ≤ 0xC) ∨ (0x10 ≤ op ∧ op ≤ 0x12) ∨ op = 0x18)

/-- A cell for this node leaves on port 18, or for the HMP on port 19; a reserved op goes no further (R240, R246, R259,
R263, R298). -/
def deliver (c : Cell) (d : Dev) : Dev :=
  if c.op = 0x20 ∧ c.bounce = false then { d with rtr := { d.rtr with toHmp := snoc d.rtr.toHmp c } }
  else
    let d := cntIf (c.cls == 0) (rtrBase + 0x2218) (cntInc (rtrBase + 0x2208) d)
    if c.bounce || opKnown c.op.toNat then { d with rtr := { d.rtr with toNic := snoc d.rtr.toNic c } }
    else
      let d := expArrive c (cntInc (nicBase + 0x808) d)
      match k3Check c d with
      | some d => d
      | none => cntInc (nicBase + 0x868) d

/-- The cell leaves the place it waited in. -/
def takeOut (c : Cand) (d : Dev) : Dev :=
  match c.place with
  | .detour => { d with ports := { d.ports with detour := d.ports.detour.erase (c.inp, c.cell) } }
  | .back => { d with rtr := { d.rtr with back := d.rtr.back.erase (c.inp, c.cell) } }
  | .nic =>
    cntIf (c.cell.cls == 0) (nicBase + 0x880) (cntInc (nicBase + 0x800) (cntInc (rtrBase + 0x2200)
      { d with nic := { d.nic with txq := d.nic.txq.erase c.cell } }))
  | .staging =>
    stagingFree c.inp { d with rtr := { d.rtr with staging := spMod [] c.inp (fun l => l.erase c.cell) d.rtr.staging } }

/-- The cell takes a slot of an output: port 18 delivers it, an external port sends it in its next unit (R249). -/
def leaveOn (c : Cand) (o : Nat) (a : Arb) : Arb :=
  let d := takeOut c a.d
  ⟨if o = 18 then deliver c.cell d else portSend o c.inp c.cell d, spMod 0 o (fun n => n - 1) a.slots⟩

/-- Pass 1: Express cells take their one output or wait: an arriving one is for this node and takes port 18 (R249). -/
def pass1 (c : Cand) (a : Arb) : Arb :=
  let out := if c.inp < 16 then some 18 else expPort a.d (routeEntry a.d c.cell.dst.toNat)
  match out with
  | some o => if hasSlot a o c.cell then leaveOn c o a else a
  | none => a

/-- The productive outputs of a cell, in order. -/
def outsOf (d : Dev) (c : Cell) : List Nat :=
  let e := routeEntry d c.dst.toNat
  fieldN e 61 57 :: (if e.getLsbD 51 then [fieldN e 56 52] else [])

/-- Pass 3: a productive output, a deflection, or the detour buffer; in Withdraw a cell with a productive output waits
for it (R249, R257, R290). A cell for this node with no hop left is not deflected (log entry 94). -/
def pass3 (c : Cand) (a : Arb) : Arb :=
  match (outsOf a.d c.cell).find? (fun o => hasSlot a o c.cell) with
  | some o => leaveOn c o a
  | none =>
    if a.d.rst.withdraw.isSome && !c.cell.bounce then a
    else
      match (List.range 16).find? (fun o => c.cell.hops != 0 && deflectOut a.d o && hasSlot a o c.cell) with
      | some o =>
        let a := leaveOn c o a
        ⟨cntInc (rtrBase + 0x1010 + 0x100 * o) a.d, a.slots⟩
      | none =>
        if c.place ≠ .staging then a
        else if a.d.ports.detour.length < detourCap then ⟨detourAdd c.inp c.cell (takeOut c a.d), a.slots⟩
        else a

/-- Pass 2: cells for this node take port 18, or go as in pass 3; MGMT cells take port 19. -/
def pass2 (c : Cand) (a : Arb) : Arb :=
  if c.cell.op = 0x20 ∧ c.cell.bounce = false then ⟨deliver c.cell (takeOut c a.d), a.slots⟩
  else if hasSlot a 18 c.cell then leaveOn c 18 a
  else pass3 c ⟨cntInc (rtrBase + 8) a.d, a.slots⟩

/-- Pass 4: injections take out0 or out1 or wait in the NIC. -/
def pass4 (c : Cand) (a : Arb) : Arb :=
  match (outsOf a.d c.cell).find? (fun o => hasSlot a o c.cell) with
  | some o => leaveOn c o a
  | none => a

/-- The staged cells of every input. -/
def stagedCands (d : Dev) : List Cand :=
  (List.range 16).flatMap (fun p => ((spGet [] d.rtr.staging p).take stagingCap).map (fun c => ⟨p, .staging, c⟩))

/-- The four passes (R249), with the NIC's cells that may enter: 16 at most between passes 1 and 4 (R246). -/
def arbitrate (inj : List Cell) (d : Dev) : Dev :=
  let slots := (List.range 16).foldl (fun m p => spPut 0 p (portSlots d p) m) (spPut 0 18 16 [])
  let st := stagedCands d ++ d.rtr.back.map (fun x => ⟨x.1, .back, x.2⟩)
  let own (c : Cand) : Bool := c.cell.dst == d.rtr.node
  let ex (c : Cand) : Bool := c.cell.cls == 0
  let det : List Cand := d.ports.detour.map (fun x => ⟨x.1, .detour, x.2⟩)
  let nic : List Cand := inj.map (fun c => ⟨18, .nic, c⟩)
  let run (f : Cand → Arb → Arb) (l : List Cand) (a : Arb) : Arb := (byAge l).foldl (fun a c => f c a) a
  let a : Arb := ⟨d, slots⟩
  let a := run pass1 (st.filter ex ++ nic.filter ex) a
  let entered := d.nic.txq.length - a.d.nic.txq.length
  let a := run pass2 (st.filter (fun c => own c && !(ex c))) a
  let a := run pass3 (st.filter (fun c => !(own c) && !(ex c)) ++ det) a
  (run pass4 ((nic.filter (fun c => !(ex c))).take (injectCap - entered)) a).d

/-- Express cells that still wait in staging, and at the NIC's port (R269). -/
def expWaiting (d : Dev) : Nat :=
  ((stagedCands d).filter (fun c => c.cell.cls == 0)).length + (d.rtr.back.filter (fun x => x.2.cls == 0)).length +
    (if d.nic.stopped then 0 else (offered d true).length)

/-- A full detour buffer takes down the ports that withhold slots while their input receives (R290). -/
def detourFull (d : Dev) : Dev :=
  if d.ports.detour.length ≤ detourHigh then d
  else
    (List.range 16).foldl (fun d p =>
      let x := portGet d p
      let near (t : Option Nat) : Bool := match t with
        | some t => decide (d.rtr.cycle < t + 64)
        | none => false
      if x.st = .active ∧ (near x.withheld && near x.lastIn) = true then
        exitAbrupt p 0xF 0 (cntInc (rtrBase + 0x50) d)
      else d) d

/-- A context waits for room in its completion ring: its records are held, or its descriptors do not start (R337). -/
def cqWaits (s : State) : Bool :=
  !s.dev.nic.held.isEmpty || (s.dev.nic.dq.take dqCap).any (fun e => !(cqRoom s e.slot).1)

/-- The hub cycles the NIC counts while it waits for room (R337, R361, R270). -/
def nicWaits (cq : Bool) (d : Dev) : Dev :=
  cntIf (!d.nic.waitq.isEmpty) (nicBase + 0x840) (cntIf cq (nicBase + 0x948) d)

/-- One hub cycle of the router (R249). -/
def routeCycle (cq : Bool) (d : Dev) : Dev :=
  let d := { d with rtr := { d.rtr with cycle := d.rtr.cycle + 1 } }
  let (inj, d) := ingressAll (screenAll (nicWaits cq d))
  let d := arbitrate inj d
  let d := (List.range 16).foldl (fun d p => portCycle p d) d
  detourFull (cntAdd (rtrBase + 0x28) (expWaiting d) d)

/-- CELL_ROUTE (R249). -/
def execCellRoute (s : State) : Host.Outcome State Fault Refusal := portEvent (routeCycle (cqWaits s)) s

end Sys2Proof.Machine
end

