-- ==== Sys2Proof/Machine/ResetBase.lean ====
section
/-! DEFINITION. Withdraw, system reset, the release of the domains, core reset with its counting, and the stops
(R408 to R421, R448, R452 to R455, R460 to R463, R507, R513, R514). -/

namespace Sys2Proof.Machine

/-! ### Boundary scan on the inputs (R575) -/

/-- The level the module's logic sees on the `i`-th digital LS pin of R570: the boundary register's while EXTEST is in
force. -/
def pinLevel (d : Dev) (i : Nat) (level : Bool) : Bool := if extestOn d then d.jtag.bsr.getLsbD i else level

/-! ### Blocks cleared (R408, R463, R514) -/

/-- node_id from the straps as sampled (R266). -/
def strapNode (d : Dev) : BitVec 12 := BitVec.ofNat 12 (4 * d.fuses.trayId + d.fuses.boardSlot)

/-- The router after reset (R248, R463). -/
def routerReset (d : Dev) : Router :=
  { Router.reset with node := strapNode d, table := spPut 0 (strapNode d).toNat ownEntry [] }

/-- Every counter but the reset counters, which AON holds (R444), and those of the management link (R513). -/
def clearCounters (d : Dev) : Dev :=
  { d with cnt := spErase (fun k => !decide ((rstBase + 0x200 ≤ k ∧ k < rstBase + 0x230) ∨
      (objCnt 0x101000 ≤ k ∧ k < objCnt 0x104000))) d.cnt }

/-- The latches that stay through a reset are those of RST_ registers (R56, R408). -/
def rstLatches (m : Sparse W32) : Sparse W32 := spErase (fun k => !decide (rstBase ≤ k ∧ k < rstBase + 0x10000)) m

/-- The mezzanine layers that refresh twice as often: the hottest of the four sensors of a layer reads 85 °C or above
(R27, R210). -/
def hotLayers (sensors : Sparse (Option Int)) : BitVec 4 :=
  let hot (k : Nat) : Bool := (List.range 4).any (fun i =>
    match spGet none sensors (24 + 4 * k + i) with
    | some t => decide (850 ≤ t)
    | none => false)
  BitVec.ofNat 4 ((List.range 4).map (fun k => if hot k then 2 ^ k else 0)).sum

/-- Memory control after reset: the page list of the defect list stays recorded there (R201, R408), and the readings
that go on through the reset set the refresh of the layers (R27). -/
def memcReset (d : Dev) : Dev :=
  { d with memc := { MemCtl.reset with repairRows := d.memc.repairRows, mezz2x := hotLayers d.pwr.cool.sensors } }

/-- Limits, clocks, flags and energy registers after reset; the supply and the sensors go on (R399, R400, R408). -/
def pwrReset (d : Dev) : Dev :=
  let p := d.pwr
  { d with pwr := {
      supply := { p.supply with marginal := false, stopRail := 0, stopCause := 0 }
      cool := { p.cool with
        coolantHot := false, leakFault := false, faultRun := 0, dryRun := 0, balanceRun := 0, balanceSuspended := true
        failing := [], sensingDegraded := false, sensingCause := 0 }
      lim := { Limits.reset with brake := p.lim.brake }
      gal := p.gal.foldl (fun m e => spPut Gal.reset e.1 { Gal.reset with tj := e.2.tj } m) []
      ctxEnergy := [], overhead := 0, ballastE := 0, total := 0 } }

/-- Every block but AON, flash, HMP and management stopped: halls, landings, NIC, router, ports, rack time, memory
control, limits and the host interface (R408, R441). -/
def stopBlocks (d : Dev) : Dev :=
  let d := { d with
    lnd := [], nic := .reset, rtr := routerReset d, tim := { Tim.reset with now := d.tim.now }, ls := .reset
    hif := { Hif.reset with out := d.hif.out, latch := rstLatches d.hif.latch }, regs := [] }
  resetPorts (pwrReset (memcReset d))

/-- The same in a system or power-on reset, which clears the counters too (R270, R311, R408). -/
def clearBlocks (d : Dev) : Dev := stopBlocks (clearCounters d)

/-- Objects that survive a reset (R514). -/
def persisted (key : Nat) : Bool :=
  [0x101001, 0x410001, 0x601001, 0x601002, 0x601003, 0x601004, 0x700001].contains key

/-- The HMP and its objects after a restart (R494, R502, R503, R514). -/
def clearHmp (d : Dev) : Dev :=
  let d := cntClear (objCnt 0x101000) (objCnt 0x104000) d
  { d with
    kmd := { Kmd.reset with
      objs := spErase (fun k => !(persisted k)) d.kmd.objs, blobs := spErase (fun k => !(persisted k)) d.kmd.blobs
      keys := d.kmd.keys, sent := d.kmd.sent, plcaNode := d.kmd.plcaNode, mac := d.kmd.mac }
    health := { d.health with
      degraded := 0, landState := [], lmap := [], landingsEnabled := 0, defectLost := false, defectsNow := []
      retirePending := 0
      scrub := none, fills := [], report := .none, scrubbed := [], portAdmitted := [], portAdmitStored := [] }
    rst := { d.rst with
      phase := 0, hold := 0, startMs := none, topoOk := false, withdraw := none, coreBusy := false, hangPending := false } }

/-! ### Release and the beginning of a start (R419, R420, R424, R426) -/

/-- 500 ms, for which no frame is answered (R496). -/
def quietNs : Nat := 500 * 10 ^ 6

/-- The hub uncore is released and the start begins (R424, R426, R508). -/
def startBegin (d : Dev) : Dev :=
  let d := { d with
    rst := { d.rst with
      held := false, step := 10, hold := 0, phase := 0, incarnation := d.rst.incarnation + 1, startAt := d.tim.now
      startMs := none, clocksStopped := false }
    kmd := { d.kmd with quietUntil := d.tim.now + quietNs } }
  releasePorts (setState .start (cntInc (rstBase + 0x200) d))

/-- Step 2 of R419: the clocks lock and the domains follow, or the release waits for REFCLK (R420). -/
def releaseDomains (locked : Bool) (d : Dev) : Dev :=
  if locked then startBegin { d with rst := { d.rst with refLocked := true, refLost := false } }
  else { d with rst := { d.rst with held := false, step := 2, hold := 4, refLocked := false } }

/-! ### System reset (R408, R410, R415, R452 to R455) -/

/-- The blocks and the HMP are reset; stores are cold (R207, R408). -/
def clearAll (s : State) : State :=
  let s := coldAll s
  { s with dev := clearHmp (clearBlocks s.dev) }

/-- The reset itself: everything is cleared, and the release follows unless a pin holds it (R410, R419). -/
def systemResetNow (s : State) : State :=
  let s := clearAll { s with dev := cntInc (rstBase + 0x210) s.dev }
  let d := { s.dev with rst := { s.dev.rst with cold := false, held := true, step := 1 } }
  { s with dev := if d.rst.sysPinLow then d else releaseDomains (!d.rst.refLost) d }

/-- Any port is ACTIVE. -/
def anyActive (d : Dev) : Bool := (List.range 16).any (fun p => (portGet d p).st == .active)

/-- The DEPART cell of this module (R240, R256). -/
def departCell (d : Dev) : Cell := { cellZero with dst := d.rtr.node, src := d.rtr.node, cls := 3, op := 0x3C }

/-- DEPART on every ACTIVE port, in a unit sent then and there (R256, R454, R461; log entry 95). -/
def sendDepart (d : Dev) : Dev :=
  (List.range 16).foldl (fun d p => if (portGet d p).st = .active then sendLocal p (departCell d) d else d) d

/-- Steps 1 and 2 of Withdraw (R454): injection stops, kernels abort, DEPART goes out. -/
def withdrawBegin (why : AfterWithdraw) (d : Dev) : Dev :=
  let d := { d with rst := { d.rst with withdraw := some why }, nic := { d.nic with stopped := true } }
  sendDepart (forceRuns (fun _ => true) 0x06 d)

/-- What runs in RECOVERY and OUT_OF_SERVICE: AON, the HMP, the management port and the service port (R441, R453). -/
def recoverySet (d : Dev) : Dev := setPhase 9 3 { d with rst := { d.rst with step := 3 } }

/-- OUT_OF_SERVICE is entered: the running set is that of RECOVERY (R453). -/
def enterService (s : State) : State :=
  let s := coldAll s
  let d := stopBlocks s.dev
  let d := { d with
    rst := { d.rst with withdraw := none, coreBusy := false, hangPending := false }
    health := { d.health with oosMark := true, scrub := none, fills := [], landState := [], lmap := []
                              landingsEnabled := 0 }
    kmd := { d.kmd with pendState := 0 } }
  { s with dev := setState .outOfService (recoverySet d) }

/-- A counted reset too many: RST_CAUSE, the mark, and OUT_OF_SERVICE (R453). -/
def outOfService (s : State) : State :=
  enterService { s with dev := { s.dev with rst := { s.dev.rst with cause := setField s.dev.rst.cause 13 1 1 } } }

/-- The sensors of parts without power are not read (R389). -/
def dropUnread (d : Dev) : Dev :=
  let main := d.pwr.supply.mainRails == .on
  let mem := d.pwr.supply.memRails == .on
  { d with pwr := { d.pwr with
      gal := if main then d.pwr.gal else d.pwr.gal.foldl (fun m e => spPut Gal.reset e.1 { e.2 with tj := [] } m) []
      cool := { d.pwr.cool with
        sensors := spErase (fun n => if n < 16 then !main else !mem) d.pwr.cool.sensors } } }

/-- Rails off: PG_MAIN falls with the main rails, and PG_MEM with the memory rails where EN_MEM is off too; nothing runs
(R364, R365); power-on reset is held again, and its release samples the straps anew (R573). -/
def mainRailsOff (d : Dev) : Dev :=
  let sp := { d.pwr.supply with mainRails := .off, memRails := if d.pwr.supply.enMem then d.pwr.supply.memRails else .off }
  dropUnread { d with
    pwr := { d.pwr with supply := sp }, rst := { d.rst with step := 1, held := true, withdraw := none }
    pins := { d.pins with latched := false } }

/-- The module stops: OFF, and every recovery action in progress ends incomplete (R415, R460, R508). -/
def stopNow (d : Dev) : Dev :=
  setState .off { d with
    rst := { d.rst with withdraw := none, coreBusy := false, hangPending := false, clocksStopped := true }
    health := { d.health with scrub := none, fills := [] }
    kmd := { d.kmd with pendState := 0 } }

/-- A bit of RST_CAUSE (R415, R416). -/
def setCause (b : Nat) (d : Dev) : Dev := { d with rst := { d.rst with cause := setField d.rst.cause b 1 1 } }

/-- PWR_STOP.cause (R403). -/
def stopCauseSet (n : Nat) (d : Dev) : Dev :=
  { d with pwr := { d.pwr with supply := { d.pwr.supply with stopCause := n } } }

/-- PWR_OFF_REQ_N asserted (R366, R391, R397). -/
def offRequest (d : Dev) : Dev := { d with pwr := { d.pwr with supply := { d.pwr.supply with pwrOffReq := true } } }

/-- Every channel in self-refresh (R205, R395). -/
def dramAsleep (d : Dev) : Dev :=
  if d.pwr.supply.memRails ≠ .on ∨ hubUp d = false then d else
  let awake := (List.range 192).filter (fun c => !(d.memc.srf.contains c))
  cntAdd (memBase + 0x460) awake.length { d with memc := { d.memc with pdn := [], srf := List.range 192 } }

/-- The end of a stop: DRAM in self-refresh, and the rails off where EN_MAIN is (R365, R395). -/
def stopAsleep (d : Dev) : Dev :=
  let d := stopNow (dramAsleep d)
  if d.pwr.supply.enMain then d else mainRailsOff d

/-- What follows Withdraw. -/
def afterWithdraw (why : AfterWithdraw) (s : State) : State :=
  match why with
  | .sysReset => systemResetNow s
  | .outOfService => outOfService s
  | .railsOff => { s with dev := mainRailsOff (stopNow s.dev) }
  | .flowStop => { s with dev := stopCauseSet 1 (stopAsleep s.dev) }
  | .leakStop => { s with dev := offRequest (stopCauseSet 2 (stopAsleep s.dev)) }

/-- Withdraw when any port is ACTIVE, otherwise what follows it at once (R410, R454). -/
def withdrawThen (why : AfterWithdraw) (s : State) : State :=
  if anyActive s.dev then { s with dev := withdrawBegin why s.dev } else afterWithdraw why s

/-- Step 5 of Withdraw: units left unacknowledged are lost, and step 7: every port DISABLED (R454). -/
def withdrawPorts (d : Dev) : Dev :=
  (List.range 16).foldl (fun d p =>
    let st := (portGet d p).st
    if st = .disabled ∨ st = .retired then d
    else
      let d := if st = .active then leaveActive p d else d
      portDown p .disabled (some 0x11) (dropUnacked p d)) d

/-- Steps 5 to 8 of Withdraw (R454). -/
def withdrawEnd (s : State) : State :=
  match s.dev.rst.withdraw with
  | none => s
  | some why =>
    let d := withdrawPorts s.dev
    let d := if d.hif.linkUp then endRings (fun _ => true) 0x06 d else d
    afterWithdraw why { s with dev := { d with rst := { d.rst with withdraw := none } } }

/-- 24 h of powered time in ns (R452). -/
def dayPowered : Nat := 86400 * 10 ^ 9

/-- Counted resets still in the window. -/
def within24h (now : Nat) (l : List Nat) : List Nat := l.filter (fun t => decide (now < t + dayPowered))

/-- A running module: not OFF, its clocks not stopped. -/
def moduleRuns (d : Dev) : Bool := hubUp d && d.health.state != .off

/-- A request for a system reset (R410, R415, R452, R453): merged with one in progress, counted, Withdraw first. -/
def sysReset (counted : Bool) (s : State) : State :=
  let d := s.dev
  if !(moduleRuns d) || d.rst.withdraw.isSome then s
  else
    let counts := counted && !(d.health.state == .maint || d.health.state == .recovery)
    let near := within24h d.tim.now d.health.sysResets
    let d := emit 0x6004 0 1 d
    if counts && decide (3 ≤ near.length) then withdrawThen .outOfService { s with dev := d }
    else
      let d := if counts then { d with health := { d.health with sysResets := snoc near d.tim.now } } else d
      withdrawThen .sysReset { s with dev := d }

/-- A system reset from a source with a bit of RST_CAUSE. -/
def sysResetFrom (bit : Nat) (counted : Bool) (s : State) : State := sysReset counted { s with dev := setCause bit s.dev }

/-! ### Core reset (R421, R452, R453, R460) -/

/-- A core reset of a source, counted unless accepted in MAINT (R452, R453). -/
def coreReset (bit : Nat) (s : State) : State :=
  let d := setCause bit s.dev
  let counts := d.health.state != .maint
  let near := within24h d.tim.now d.health.coreResets
  if counts && decide (4 ≤ near.length) then withdrawThen .outOfService { s with dev := d }
  else
    let d := if counts then { d with health := { d.health with coreResets := snoc near d.tim.now } } else d
    coreResetNow bit { s with dev := d }

/-- The hang detector's core reset: it merges with one in progress and waits for a scrub (R106, R415, R460). -/
def afterHang (s : State) : State :=
  let d := s.dev
  if !d.rst.hangPending then s
  else if d.rst.coreBusy then
    { s with dev := setCause 6 { d with rst := { d.rst with hangPending := false } } }
  else if d.health.scrub.isSome || d.rst.withdraw.isSome || !(isAdmitted d) then s
  else coreReset 6 { s with dev := { d with rst := { d.rst with hangPending := false } } }

end Sys2Proof.Machine
end

