-- ==== Sys2Proof/Machine/Slot.lean ====
section
/-! DEFINITION. One landing cycle as a command: the bundle at the landing's index, or a bundle that holds one operation
(R85). -/

namespace Sys2Proof.Machine

/-- A landing cycle with a bundle at issue, and the core reset a watchdog may ask for (R85, R106). -/
def cycleWith (l : Land) (c : CycleIn) (b : Bundle) (s : State) : Host.Outcome State Fault Refusal :=
  .next (afterHang (issueCycle l.val c b s))

/-- A landing cycle with one scalar operation. -/
def cycleS (l : Land) (c : CycleIn) (k : OpCtl) (op : BitVec 8) (f : SOps) (s : State) : Host.Outcome State Fault Refusal :=
  cycleWith l c (bundleS k op f) s

/-- A landing cycle with one vector operation. -/
def cycleV (l : Land) (c : CycleIn) (k : OpCtl) (op : BitVec 8) (f : VOps) (s : State) : Host.Outcome State Fault Refusal :=
  cycleWith l c (bundleV k op f) s

/-- A landing cycle with one matrix operation. -/
def cycleM (l : Land) (c : CycleIn) (k : OpCtl) (op : BitVec 8) (f : MOps) (s : State) : Host.Outcome State Fault Refusal :=
  cycleWith l c (bundleM k op f) s

/-- A landing cycle with one move operation. -/
def cycleX (l : Land) (c : CycleIn) (k : OpCtl) (op : BitVec 8) (f : XOps) (s : State) : Host.Outcome State Fault Refusal :=
  cycleWith l c (bundleX k op f) s

/-- BUNDLE_ISSUE (R85): the bundle at the landing's index. -/
def execBundleIssue (l : Land) (c : CycleIn) (s : State) : Host.Outcome State Fault Refusal :=
  cycleWith l c (fetched s.dev l.val) s

/-- NOP (R64). -/
def execNop (l : Land) (c : CycleIn) (k : OpCtl) (s : State) : Host.Outcome State Fault Refusal :=
  cycleS l c k 0 ⟨0, 0, 0, 0, false, false⟩ s

end Sys2Proof.Machine
end

