-- ==== Sys2Proof/Machine/Tracker.lean ====
section
/-! DEFINITION. The end of asynchronous operations, of waits and of kernels (R92, R94, R96, R102, R104, R106, R227,
R483). -/

namespace Sys2Proof.Machine

/-- A tracker retires once its operation is done or has failed (R92). -/
def trackerRetire (l id : Nat) (s : State) : State :=
  match trkFind (lndGet s.dev l) id with
  | some t => if t.ready || t.failed.isSome then retireTracker l t s else s
  | none => s

/-- A tracker not retired 2^L cycles after its allocation: the fault is raised once, and the operation goes on (R94). -/
def trackerTimeout (l id : Nat) (d : Dev) : Dev :=
  match trkFind (lndGet d l) id with
  | some t => if t.timedOut then d else raiseTrkTimeout l id d
  | none => d

/-- No bit of the landing's circuits disturbs the cycle. -/
def calmCycle : CycleIn := ⟨false, false, false, false, false, false⟩

/-- SR_WAIT_TMO cycles have passed in a counter wait: the bundle issues with the timeout flag (R96). -/
def waitTimeout (l : Nat) (s : State) : State :=
  let x := lndGet s.dev l
  if x.phase ≠ .waiting ∨ x.regs.waitTmo = 0 then s
  else
    let b := fetched s.dev l
    let held := (actS0 b).op == 0x38 && waitHolds s l b
    let s' := onPipe l (fun p => { p with timedOut := true }) s
    if held then issueCycle l calmCycle b s' else s'

/-- A landing has ended its part of a kernel: idle, or halted by a fault, without trackers (R102, R104). -/
def landingDone (d : Dev) (l : Nat) : Bool :=
  let x := lndGet d l
  (x.phase == .idle || x.phase == .halted) && x.trk.isEmpty

/-- SR_KERNEL of descriptor `idx` of a ring (R546). -/
def seqOf (ring : Nat) (idx : W32) : Nat := ring * 2 ^ 29 + idx.toNat % 2 ^ 29

/-- NIC work of a kernel is still to complete (R102). -/
def nicWork (d : Dev) (seq ctx : Nat) : Bool :=
  let mine (x : DescSrc) : Bool := x.kernel == some (seq, ctx)
  d.nic.items.any (fun i => mine i.src) || d.nic.dq.any (fun e => mine e.src) || d.nic.insts.any (fun i => mine i.src) ||
    d.nic.contribWait.any (fun w => mine w.1.src)

/-- A kernel is complete (R102, R227); in a freeze no kernel of the context completes (R485). -/
def kernelDone (d : Dev) (slot ring : Nat) (k : Running) : Bool :=
  lKind k.desc == 0 && k.landings.all (landingDone d) && !(nicWork d (seqOf ring k.idx) (ctxWord d slot)) &&
    !(lsFrozen d (ctxWord d slot))

/-- Its kernel record has been sent and is not yet matched (R483). -/
def kernelRecPending (d : Dev) (ring : Nat) (k : Running) : Bool :=
  d.ls.state == 2 && d.ls.mine.any (fun r => r.rank == lsKernelRank && r.seq == seqOf ring k.idx)

/-- The kernel record of a compared kernel (R482, R483). -/
def postKernelRec (slot ring : Nat) (k : Running) (d : Dev) : Dev :=
  let d := ringPut slot ring { ringGet d slot ring with run := some { k with recSent := true } } d
  lsPost ⟨seqOf ring k.idx, lsKernelRank, 0, seqOf ring k.idx, k.lsSum, 0, d.tim.now⟩ d

/-- A complete kernel gets its entry, after its kernel record has matched (R102, R483, R551). -/
def kernelComplete (slot ring energy : Nat) (d : Dev) : Dev :=
  match (ringGet d slot ring).run with
  | none => d
  | some k =>
    if !(kernelDone d slot ring k) then d
    else
      let d := if k.compared && !k.recSent && d.ls.state == 2 then postKernelRec slot ring k d else d
      if kernelRecPending d ring k || lsFrozen d (ctxWord d slot) then d else flushRing slot ring (finishRun slot ring k energy d)

/-! ### The commands -/

/-- TRACKER_RETIRE (R92). -/
def execTrackerRetire (l : Land) (id : Nat) (s : State) : Host.Outcome State Fault Refusal := .next (clocked (trackerRetire l.val id) s)

/-- TRACKER_TIMEOUT (R94). -/
def execTrackerTimeout (l : Land) (id : Nat) (s : State) : Host.Outcome State Fault Refusal :=
  .next (clocked (onDev (trackerTimeout l.val id)) s)

/-- WAIT_TIMEOUT (R96). -/
def execWaitTimeout (l : Land) (s : State) : Host.Outcome State Fault Refusal := .next (clocked (waitTimeout l.val) s)

/-- WATCHDOG (R106): 2^28 running cycles have passed without issue. -/
def execWatchdog (l : Land) (s : State) : Host.Outcome State Fault Refusal :=
  .next (if (lndGet s.dev l.val).phase = .running then clocked (fun s => afterHang (onDev (raiseWatchdog l.val) s)) s else s)

/-- KERNEL_COMPLETE (R102), with the metered energy of the kernel in mJ (R388). -/
def execKernelComplete (slot : Fin 32) (ring : Fin 8) (energy : Nat) (s : State) : Host.Outcome State Fault Refusal :=
  .next (clocked (onDev (kernelComplete slot.val ring.val energy)) s)

end Sys2Proof.Machine
end

