-- ==== Sys2Proof/Machine/Engines.lean ====
section
/-! DEFINITION. The engines of a hall and a gallery take jobs from their queues (R163, R187, R192). -/

namespace Sys2Proof.Machine

/-- The landing's operation may finish: its engine serves it (R92). -/
def jobReady (j : Job) (d : Dev) : Dev :=
  lndMod j.landing (trkMod j.trk (fun t => { t with ready := true })) d

/-- The oldest job of a queue moves into service where fewer than `cap` jobs are served: the new queue, the new service
list and the job. -/
def takeJob (cap : Nat) (q run : List Job) : Option (List Job × List Job × Job) :=
  match q with
  | [] => none
  | j :: t => if run.length < cap then some (t, snoc run j, j) else none

/-- A page streamer takes its next job; it serves 32 at once (R187). -/
def streamStart (g u : Nat) (d : Dev) : Dev :=
  let k := 2 * g + u
  match takeJob 32 (spGet [] d.memc.strQ k) (spGet [] d.memc.strRun k) with
  | none => d
  | some (q, r, j) =>
    jobReady j { d with memc := { d.memc with strQ := spPut [] k q d.memc.strQ, strRun := spPut [] k r d.memc.strRun } }

/-- An unpack engine takes the next job of its hall (R192). -/
def unpackStart (h e : Nat) (d : Dev) : Dev :=
  match takeJob 1 (spGet [] d.memc.upkQ h) (spGet [] d.memc.upkRun (8 * h + e)) with
  | none => d
  | some (q, r, j) =>
    jobReady j { d with memc := { d.memc with
      upkQ := spPut [] h q d.memc.upkQ, upkRun := spPut [] (8 * h + e) r d.memc.upkRun } }

/-- The top-k engine of a gallery takes its next job (R163). -/
def topkStart (g : Nat) (d : Dev) : Dev :=
  match takeJob 1 (spGet [] d.memc.topQ g) (spGet [] d.memc.topRun g) with
  | none => d
  | some (q, r, j) =>
    jobReady j { d with memc := { d.memc with topQ := spPut [] g q d.memc.topQ, topRun := spPut [] g r d.memc.topRun } }

/-- STREAM_JOB_START (R187). -/
def execStreamJobStart (g : Fin 12) (unit : Fin 2) (s : State) : Host.Outcome State Fault Refusal :=
  .next (clocked (onDev (streamStart g.val unit.val)) s)

/-- UNPACK_JOB_START (R192). -/
def execUnpackJobStart (hall : Fin 2) (engine : Fin 8) (s : State) : Host.Outcome State Fault Refusal :=
  .next (clocked (onDev (unpackStart hall.val engine.val)) s)

/-- TOPK_JOB_START (R163). -/
def execTopkJobStart (g : Fin 12) (s : State) : Host.Outcome State Fault Refusal := .next (clocked (onDev (topkStart g.val)) s)

end Sys2Proof.Machine
end

