-- ==== Sys2Proof/Machine/MemEvents.lean ====
section
/-! DEFINITION. Patrol scrub, row sparing, the power states of DRAM channels and stores, and translation registers
(R185, R199 to R207, R211, R213). -/

namespace Sys2Proof.Machine

/-! ### Register writes that the state forbids (R13, R14) -/

/-- A write ignored under R14. -/
def refuseState (d : Dev) : Dev := hifErrBit 1 d

/-- A write ignored under R13. -/
def refuseRange (d : Dev) : Dev := hifErrBit 0 d

/-! ### Errors and rows -/

/-- The scrub's own access to a channel: one in self-refresh wakes for it alone and goes back, which counts as a wait and
as an entry (R203, R205; log entry 81). -/
def scrubTouch (pa : Nat) (d : Dev) : Dev :=
  if !(tierDram (tierOf pa)) then d
  else
    match (keyOf d pa).bind (chanOf d) with
    | some c =>
      if d.memc.srf.contains c then
        let d := cntInc (memBase + 0x460) (touch pa d)
        { d with memc := { d.memc with srf := nsInsert c d.memc.srf } }
      else touch pa d
    | none => d

/-- A read by the patrol scrub: an error is handled as a read handles it (R199, R203). -/
def patrolScrub (pa : Nat) (e : EccIn) (s : State) : State :=
  if !(isLive s.dev) then s
  else
    let s : State := { s with dev := scrubTouch pa s.dev }
    match e with
    | .clean => s
    | .correctable => { s with dev := correctable pa s.dev }
    | .uncorrectable => uncorrectable pa s

/-- A spare row of a mezzanine bank is taken; the last one sets spare_exhausted (R200, R451). -/
def takeSpare (bank : Nat) (d : Dev) : Dev :=
  let n := spGet 0 d.memc.spareUsed bank + 1
  let d := { d with memc := { d.memc with spareUsed := spPut 0 bank n d.memc.spareUsed } }
  if 8 ≤ n then setDegraded 7 true d else d

/-- The copy of a mezzanine row to a spare row of its bank ends (R200, R431). -/
def rowSpareDone (bank row : Nat) (d : Dev) : Dev :=
  let rk := bank * 2 ^ 48 + row
  if d.memc.copying.contains rk then
    let d := takeSpare bank { d with memc := { d.memc with copying := nsErase rk d.memc.copying } }
    addDefect 0x04 5 (bank - 128) (BitVec.ofNat 64 (row % 2 ^ 32)) (cntInc (memBase + 0x430) d)
  else d

/-! ### DRAM channels (R205) -/

/-- A channel number: 128 of the stacks, 64 of the mezzanine. -/
def chanOk (c : Nat) : Bool := decide (c < 192)

/-- 200 ns without an access. -/
def powerDown (c : Nat) (d : Dev) : Dev :=
  if isLive d && chanOk c && !(d.memc.srf.contains c) then
    { d with memc := { d.memc with pdn := nsInsert c d.memc.pdn } }
  else d

/-- 50 µs without an access, while dram_sr_enable is 1. -/
def selfRefresh (c : Nat) (d : Dev) : Dev :=
  if isLive d && chanOk c && objGet d 0x530001 == 1 && !(d.memc.srf.contains c) then
    cntInc (memBase + 0x460) { d with memc := { d.memc with
      pdn := nsErase c d.memc.pdn, srf := nsInsert c d.memc.srf } }
  else d

/-- An access waits for the channel's exit. -/
def selfRefreshOut (c : Nat) (d : Dev) : Dev :=
  if d.memc.srf.contains c then
    cntInc (memBase + 0x468) { d with memc := { d.memc with srf := nsErase c d.memc.srf } }
  else d

/-! ### Store gating (R206, R207) -/

/-- The landings whose idleness lets a store gate. -/
def storeLandings (n : Nat) : List Nat :=
  if n < 104 then [n]
  else
    let p := gallerySlots (n - 104)
    (List.range p.2).map (fun i => p.1 + i)

/-- The code-table set of an unpack job: the one range that an operation names and its tracker does not hold (R80,
R193). -/
def tableSet (op : AsyncOp) : List Rng :=
  match op with
  | .xunpack _ _ _ _ _ tables => rngOf tables 2048 false
  | _ => []

/-- A tracker of any landing holds a range in the store, or a pending job names it. -/
def storeNamed (d : Dev) (n : Nat) : Bool :=
  let sp := storeSpan n
  (List.range 104).any (fun l => (lndGet d l).trk.any (fun t =>
    (t.rngs ++ tableSet t.op).any (fun r => decide (64 * r.lo < sp.1 + sp.2 ∧ sp.1 ≤ 64 * r.hi))))

/-- The store's idle period runs: its landings are idle and nothing is pending in it (R206). -/
def storeIdle (d : Dev) (n : Nat) : Bool :=
  isLive d && (storeLandings n).all (fun l => (lndGet d l).phase == .idle) && !(storeNamed d n)

/-- The store_gate_idle_us that holds for the idle period of a store (R216). -/
def gateSetting (d : Dev) (n : Nat) : Nat := (spGet none d.memc.gateKeep n).getD (objGet d 0x530002)

/-- A write of store_gate_idle_us is coming: the idle periods that run keep the value they began with (R216). -/
def keepGateSettings (d : Dev) : Dev :=
  { d with memc := { d.memc with gateKeep := (List.range 116).foldl (fun m n =>
      if storeIdle d n then spPut none n (some (gateSetting d n)) m else m) d.memc.gateKeep } }

/-- The store may gate: gating enabled for its idle period. -/
def storeCanGate (d : Dev) (n : Nat) : Bool :=
  decide (n < 116) && gateSetting d n != 0 && !(d.memc.gated.contains n) && storeIdle d n

/-- A store gates itself: its contents are gone, and every granule is cold when it comes back. -/
def storeGate (n : Nat) (s : State) : State :=
  if storeCanGate s.dev n then
    let s := coldStore n s
    { s with dev := cntInc (memBase + 0x458) { s.dev with memc := { s.dev.memc with gated := nsInsert n s.dev.memc.gated } } }
  else s

/-- A gated store has come back, cold. -/
def storeWake (n : Nat) (d : Dev) : Dev := { d with memc := { d.memc with gated := nsErase n d.memc.gated } }

/-! ### Translation (R185, R211, R213) -/

/-- A write of MEM_XLT_INV (R211). -/
def xltInvWrite (v : W32) (d : Dev) : Dev :=
  let scope := fieldN v 17 16
  if !(isLive d) || d.memc.xltInv.isSome then refuseState d
  else if 2 ≤ scope then refuseRange d
  else { d with memc := { d.memc with xltInv := some (scope, fieldN v 4 0) } }

/-- The invalidation ends: no entry of its scope stays cached (R185, R211). -/
def xltInvDone (d : Dev) : Dev :=
  match d.memc.xltInv with
  | none => d
  | some (scope, n) =>
    { d with memc := { d.memc with
      xltInv := none
      xltCache := if scope = 1 then [] else d.memc.xltCache.filter (fun e => e.slot != n) } }

/-- A write of MEM_XLT_ROOT (R213). -/
def xltRootPut (n : Nat) (v : W64) (d : Dev) : Dev :=
  if !(isLive d) || kernelRuns d n then refuseState d
  else
    regPut (memBase + 0x100 + 8 * n) (v &&& 0x0000FFFFFFFFF001)
      { d with memc := { d.memc with xltCache := d.memc.xltCache.filter (fun e => e.slot != n) } }

/-! ### The commands -/

/-- PATROL_SCRUB (R203). -/
def execPatrolScrub (pa : Nat) (e : EccIn) (s : State) : Host.Outcome State Fault Refusal := .next (clocked (patrolScrub pa e) s)

/-- ROW_SPARE_DONE (R200). -/
def execRowSpareDone (bank row : Nat) (s : State) : Host.Outcome State Fault Refusal := .next (clocked (onDev (rowSpareDone bank row)) s)

/-- POWER_DOWN_ENTRY (R205). -/
def execPowerDownEntry (chan : Nat) (s : State) : Host.Outcome State Fault Refusal := .next (clocked (onDev (powerDown chan)) s)

/-- SELF_REFRESH_ENTRY (R205). -/
def execSelfRefreshEntry (chan : Nat) (s : State) : Host.Outcome State Fault Refusal := .next (onDev (selfRefresh chan) s)

/-- SELF_REFRESH_EXIT (R205). -/
def execSelfRefreshExit (chan : Nat) (s : State) : Host.Outcome State Fault Refusal :=
  .next (clocked (onDev (selfRefreshOut chan)) s)

/-- STORE_GATE (R206). -/
def execStoreGate (store : Nat) (s : State) : Host.Outcome State Fault Refusal := .next (clocked (storeGate store) s)

/-- STORE_WAKE (R207). -/
def execStoreWake (store : Nat) (s : State) : Host.Outcome State Fault Refusal := .next (clocked (onDev (storeWake store)) s)

/-- XLT_INV (R211). -/
def execXltInv (v : W32) (s : State) : Host.Outcome State Fault Refusal := .next (fromHost (onDev (xltInvWrite v)) s)

/-- XLT_INV_DONE (R185). -/
def execXltInvDone (s : State) : Host.Outcome State Fault Refusal := .next (clocked (onDev xltInvDone) s)

/-- XLT_ROOT_WRITE (R213). -/
def execXltRootWrite (slot : Fin 32) (v : W64) (s : State) : Host.Outcome State Fault Refusal :=
  .next (fromHost (onDev (xltRootPut slot.val v)) s)

end Sys2Proof.Machine
end

