-- ==== Sys2Proof/Machine/PowerBase.lean ====
section
/-! DEFINITION. Power and cooling: the status word and its events, landing clocks, the effective limit, requests that
fixed-frequency mode forbids, scheduled actions, plausibility episodes, and the sequencing of the rails (R363 to R402). -/

namespace Sys2Proof.Machine

/-! ### Parts of the state -/

def limMod (f : Limits → Limits) (d : Dev) : Dev := { d with pwr := { d.pwr with lim := f d.pwr.lim } }

def coolMod (f : Cool → Cool) (d : Dev) : Dev := { d with pwr := { d.pwr with cool := f d.pwr.cool } }

def supMod (f : Supply → Supply) (d : Dev) : Dev := { d with pwr := { d.pwr with supply := f d.pwr.supply } }

def galMod (g : Nat) (f : Gal → Gal) (d : Dev) : Dev :=
  { d with pwr := { d.pwr with gal := spMod Gal.reset g f d.pwr.gal } }

/-! ### PWR_STATUS and its events (R400, R401, R505) -/

/-- PWR_STATUS (R400). -/
def pwrStatus (d : Dev) : W32 :=
  let l := d.pwr.lim
  let c := d.pwr.cool
  let b (n : Nat) (v : Bool) : Nat := b2n v * 2 ^ n
  BitVec.ofNat 32 (b 31 c.sensingDegraded + b 30 l.lostCap + b 29 l.brake + b 28 l.capUnreachable + b 27 l.floorCapped +
    b 26 l.floorShort + b 25 (l.eff.ffMhz != 0) + b 24 l.ffSuspended + b 23 l.rampBound + b 22 l.railBoundW +
    b 21 l.railBoundE + b 20 l.pplBound + b 19 c.coolantHot + b 18 c.leakFault + b 17 c.balanceSuspended +
    b 16 d.pwr.supply.marginal + l.ceiling)

/-- The flags that event 0x2002 reports (R505). -/
def evFlags : W32 := 0x3A0D0000

/-- A bit of PWR_EVT where a flag of PWR_STATUS has risen, or has changed. -/
def evtRise (old new : W32) (flag bit : Nat) (d : Dev) : Dev :=
  if new.getLsbD flag && !(old.getLsbD flag) then pwrEvtBit bit d else d

def evtChange (old new : W32) (flag bit : Nat) (d : Dev) : Dev :=
  if new.getLsbD flag != old.getLsbD flag then pwrEvtBit bit d else d

/-- A change of the power state: its bits of PWR_EVT, and one event 0x2002 for all flags that changed (R401, R505). -/
def pwrChange (f : Dev → Dev) (d : Dev) : Dev :=
  let old := pwrStatus d
  let d := f d
  let new := pwrStatus d
  let d := evtRise old new 16 9 (evtRise old new 19 8 (evtRise old new 18 7 d))
  let d := evtChange old new 24 4 (evtChange old new 29 3 (evtChange old new 27 2 (evtChange old new 28 1 d)))
  if old &&& evFlags = new &&& evFlags then d else emit 0x2002 0 (BitVec.ofNat 64 new.toNat) d

/-! ### Landing clocks (R367, R368, R379, R390) -/

/-- The hottest of some sensors in tenths of a degree; none while none is read. -/
def hottest (l : Sparse (Option Int)) : Option Int :=
  l.foldl (fun m e =>
    match m, e.2 with
    | some a, some b => some (max a b)
    | none, x => x
    | x, none => x) none

def galHot (g : Gal) : Option Int := hottest g.tj

/-- The hottest junction sensor: galleries, hub and port tiles (R389, R407). -/
def hottestJunction (d : Dev) : Option Int :=
  hottest (d.pwr.gal.flatMap (fun e => e.2.tj) ++ d.pwr.cool.sensors.filter (fun e => decide (e.1 < 16)))

/-- The gallery may boost (R368). -/
def boostOk (d : Dev) (g : Gal) : Bool :=
  let l := d.pwr.lim
  l.eff.boost && l.eff.ffMhz == 0 && !l.boundNow && !l.boundPrev &&
    (match galHot g with
     | some t => decide (t ≤ (l.eff.tjC : Int) * 10 - 100)
     | none => false)

/-- Fixed-frequency mode is in force (R379, R382). -/
def ffOn (d : Dev) : Bool := d.pwr.lim.eff.ffMhz != 0 && !d.pwr.lim.ffSuspended

/-- The landing clock a gallery asks for, in units of 25 MHz. -/
def clockWant (d : Dev) (g : Gal) : Nat :=
  let l := d.pwr.lim
  if ffOn d then l.eff.ffMhz / 25
  else min g.own (min l.ceiling (if boostOk d g then 72 else min 60 (if l.eff.ffMhz = 0 then 60 else l.eff.ffMhz / 25)))

/-- Clock decreases take effect at once; increases wait for the rail (R367). -/
def settleClocks (d : Dev) : Dev :=
  (List.range 12).foldl (fun d g => galMod g (fun x => { x with clk := min x.clk (clockWant d x) }) d) d

/-- The rail of a hall has reached the voltage of the highest clock asked for (R367). -/
def raiseClocks (hall : Nat) (d : Dev) : Dev :=
  (List.range 6).foldl (fun d i => galMod (6 * hall + i) (fun x => { x with clk := clockWant d x }) d) d

/-! ### The effective limit (R373) -/

/-- L: ppl_w, 50% of it in sensing_degraded, lost_cap_pct of it under the lost-cap, whichever is lowest. -/
def effLimit (d : Dev) : Nat :=
  let e := d.pwr.lim.eff
  min e.pplW (min (if d.pwr.lim.sensOn then e.pplW / 2 else e.pplW)
    (if d.pwr.lim.lostCap then e.lostCapPct * e.pplW / 100 else e.pplW))

/-- A change of L at a boundary: counted and reported with its cause; a fall discards the history (R373, R405). -/
def applyLimit (reason : Nat) (d : Dev) : Dev :=
  let old := d.pwr.lim.limit
  let new := effLimit d
  if new = old then d
  else
    let k := d.pwr.lim.eff.pplWindow
    let d := limMod (fun l => { l with
      limit := new, tight := decide (new < old), hist := if new < old then List.replicate (k - 1) new else l.hist
      recent := if new < old then [] else l.recent }) d
    let d := pwrEvtBit 0 (cntInc (pwrBase + 0x340) d)
    emit 0x2001 0 (BitVec.ofNat 64 (new + old * 2 ^ 16 + reason * 2 ^ 32)) d

/-! ### Requests in fixed-frequency mode (R380, R381) -/

/-- ff_table: MHz, minimum ppl_w, minimum rail limit (R380). -/
def ffTable : List (Nat × Nat × Nat) :=
  [(800, 1675, 500), (900, 1775, 550), (1000, 1900, 625), (1100, 2025, 700), (1200, 2175, 775), (1300, 2325, 850),
   (1400, 2500, 925)]

/-- The row of a clock: its own, or the next higher one. -/
def ffRow (mhz : Nat) : Nat × Nat := ((ffTable.find? (fun r => decide (mhz ≤ r.1))).map (·.2)).getD (2500, 925)

/-- ff_mhz may be set to a value (R379). -/
def ffValue (v : Nat) : Bool := v == 0 || decide (800 ≤ v ∧ v ≤ 1400 ∧ v % 25 = 0)

/-- Settings that R381 compares. -/
structure FfSet where
  ppl : Nat
  ff : Nat
  railW : Nat
  railE : Nat
  floor : Nat
  ramp : Nat
  deriving DecidableEq, Repr

/-- The settings break a condition of R381. -/
def FfSet.broken (x : FfSet) : Bool :=
  let r := ffRow x.ff
  x.ff != 0 && (decide (x.ppl < r.1) || decide (x.railW < r.2) || decide (x.railE < r.2) ||
    (x.ramp != 0 && decide (x.ramp < r.1 - x.floor)))

/-- A pending action's effect on the settings. -/
def FfSet.apply (x : FfSet) (a : Sched) : FfSet :=
  match a.kind with
  | .cap w => { x with ppl := w }
  | .ff m => { x with ff := m }
  | .lsStart _ _ => x

/-- Pending actions by boundary, in order of acceptance within one (R51). -/
def insertSched (a : Sched) : List Sched → List Sched
  | [] => [a]
  | b :: t => if a.boundary < b.boundary then a :: b :: t else b :: insertSched a t

def sortSched (l : List Sched) : List Sched := l.foldl (fun acc a => insertSched a acc) []

/-- The settings break R381 at a boundary, one action after the other; actions of one boundary count together. -/
def brokenAhead : FfSet → List Sched → Bool
  | x, [] => x.broken
  | x, a :: t =>
    let here := match t with
      | b :: _ => decide (a.boundary < b.boundary)
      | [] => false
    let y := x.apply a
    (here && y.broken) || brokenAhead y t

/-- After the settings written and every pending action have taken effect, R381 is broken at some boundary. -/
def ffConflict (d : Dev) : Bool :=
  let e := d.pwr.lim.eff
  let x : FfSet := ⟨e.pplW, e.ffMhz, objGet d 0x210003, objGet d 0x210004, objGet d 0x220001, objGet d 0x220002⟩
  let next := (d.tim.count.toNat / 2 ^ 20 + 1) * 2 ^ 20
  let near (a : Sched) : Sched := if a.boundary = 0 then { a with boundary := next } else a
  let l := sortSched (d.tim.sched.map near)
  let first := match l with
    | a :: _ => decide (next < a.boundary)
    | [] => false
  (first && x.broken) || brokenAhead x l

/-! ### Scheduled actions (R47, R50, R51) -/

/-- An accepted action joins the pending ones. -/
def schedAdd (a : Sched) (d : Dev) : Dev := { d with tim := { d.tim with sched := snoc d.tim.sched a } }

/-- The abort of a request that names a boundary, in the order of R17; 0 where it is accepted (R47, R50). -/
def schedAbort (a : Sched) (d : Dev) : Nat :=
  let t := d.tim.count.toNat
  let b := a.boundary
  let locked := d.tim.state == .locked || d.tim.state == .holdover
  if d.tim.state == .unlocked || (schedIsLs a && !locked) then 6
  else if b ≠ 0 ∧ (b % 2 ^ 20 ≠ 0 ∨ t + 2 ^ 36 < b) then 4
  else if b ≠ 0 ∧ b < t + 2 ^ 17 then 9
  else if 32 ≤ d.tim.sched.length then 7
  else 0

/-- The actions due at a boundary, in the order of acceptance (R51). -/
def schedDue (d : Dev) : List Sched := d.tim.sched.filter (fun a => a.boundary == 0 || a.boundary == d.tim.count.toNat)

/-- The actions whose boundary has passed are cancelled (R52). -/
def schedMissed (d : Dev) : Dev := cancelSched (fun a => decide (0 < a.boundary ∧ a.boundary < d.tim.count.toNat)) d

/-- A comparison starts: the registers were cleared when it was accepted (R484, R485). -/
def lsRun (d : Dev) : Dev := emit 0xA001 0 2 { d with ls := { d.ls with state := 2, endCause := 0 } }

/-- A pending action takes effect; a comparison's start that meets another state of rack time is cancelled (R47, R51). -/
def schedApply (a : Sched) (d : Dev) : Dev :=
  match a.kind with
  | .cap w => objPut 0x210002 w d
  | .ff m => objPut 0x212001 m d
  | .lsStart _ _ => if d.ls.state = 1 then lsRun d else d

/-- The settings in force from a boundary on (R370, R407). -/
def settingsNow (d : Dev) : PwrSet where
  pplWindow := objGet d 0x210001
  pplW := objGet d 0x210002
  railW := objGet d 0x210003
  railE := objGet d 0x210004
  brakePct := objGet d 0x210005
  lostCapPct := objGet d 0x210006
  boost := objGet d 0x211001 != 0
  ffMhz := objGet d 0x212001
  floorW := objGet d 0x220001
  rampW := objGet d 0x220002
  tjC := objGet d 0x230001
  coolant := objGet d 0x230003

/-! ### Plausibility (R398, R399) -/

/-- sensing_degraded is entered: event 0x2003, and the degraded cause (R399, R451). -/
def enterSensing (cause : Nat) (d : Dev) : Dev :=
  let d := pwrEvtBit 6 (cntInc (pwrBase + 0x358) d)
  if d.pwr.cool.sensingDegraded then d
  else
    let d := coolMod (fun c => { c with sensingDegraded := true, sensingCause := cause }) d
    setDegraded 4 true (emit 0x2003 0 (BitVec.ofNat 64 cause) d)

/-- An evaluation of a check: an episode begins with its first failure and ends with a pass (R398). -/
def evalCheck (cause : Nat) (fails : Bool) (d : Dev) : Dev :=
  if fails then
    (if d.pwr.cool.failing.contains cause then d
     else enterSensing cause (coolMod (fun c => { c with failing := cause :: c.failing }) d))
  else coolMod (fun c => { c with failing := c.failing.filter (· != cause) }) d

/-- sensing_clear: refused while a check fails; each check starts again from its first sample (R399). -/
def sensingClear (d : Dev) : Option Dev :=
  if !(d.pwr.cool.failing.isEmpty) || d.pwr.cool.leakFault then none
  else
    let d := coolMod (fun c => { c with sensingDegraded := false, sensingCause := 0, balanceRun := 0, faultRun := 0 }) d
    some (setDegraded 4 false ((List.range 12).foldl (fun d g => galMod g (fun x => { x with sensorFault := false }) d) d))

/-! ### Outputs and rails (R364 to R366, R422, R423, R572) -/

/-- A latched cause that keeps the module off until power-on reset (R391, R397). -/
def latchedOff (d : Dev) : Bool := d.pwr.supply.tripLatched || d.pwr.cool.leakLatched

/-- The conditions of R423 for the main rails: flow good for 1 s, a dry leak loop or a loop fault, seated. -/
def mainAllowed (d : Dev) : Bool :=
  d.pwr.cool.flowGood && (d.pwr.cool.leakReading == 0 || d.pwr.cool.leakFault) && d.rst.seated

/-- The main rails are held although EN_MAIN is asserted (R423). -/
def mainHeld (d : Dev) : Bool :=
  d.pwr.supply.enMain && d.pwr.supply.mainRails == .off && !(mainAllowed d)

/-- PG_MEM has been high for 1 ms (R364). -/
def memSettled (d : Dev) : Bool :=
  d.pwr.supply.memRails == .on && decide (d.pwr.supply.memSince + 10 ^ 6 ≤ d.tim.now)

/-- Rails that may rise begin to rise (R364, R365, R366, R423). -/
def railsEval (d : Dev) : Dev :=
  let s := d.pwr.supply
  let free := d.rst.aon && !s.enRearm && !s.supplyHold
  if free && s.enMem && s.memRails == .off && decide (1000 ≤ s.okUs) then supMod (fun s => { s with memRails := .rising }) d
  else if free && s.enMem && s.enMain && s.mainRails == .off && memSettled d && mainAllowed d && !(latchedOff d) then
    supMod (fun s => { s with mainRails := .rising, enMainEarly := false }) d
  else d

/-- Both enables are off: a start may be asked for again (R365, R366). -/
def enablesOff (d : Dev) : Dev :=
  supMod (fun s => if s.enMem || s.enMain then s else
    { s with enRearm := false
             memRails := if s.memRails = .failed then .off else s.memRails
             mainRails := if s.mainRails = .failed then .off else s.mainRails }) d

/-- ALERT_N is asserted (R572). -/
def alertOn (d : Dev) : Bool :=
  d.pwr.cool.flowStopped || d.pwr.cool.leakLatched || d.rst.hold == 4 || mainHeld d || d.rst.refLost

end Sys2Proof.Machine
end

