-- ==== Sys2Proof/Machine/Power.lean ====
section
/-! DEFINITION. The limiters, the power window boundary, droop, self-throttle, temperatures, coolant flow, leak sensing,
plausibility, and the supply with its rails (R363 to R402). -/

namespace Sys2Proof.Machine

/-! ### The ladder of the limiters (R369) -/

/-- One step down. -/
def ladderDown (l : Limits) : Limits :=
  if 0 < l.ballast then { l with ballast := 0 }
  else if 60 < l.ceiling then { l with ceiling := 60 }
  else if 16 < l.ceiling then { l with ceiling := l.ceiling - 1 }
  else if 0 < l.duty then { l with duty := l.duty - 1 }
  else if 4 < l.ceiling then { l with ceiling := l.ceiling - 1 }
  else l

/-- Steps down, as many as there are. -/
def ladderDownN : Nat → Limits → Limits
  | 0, l => l
  | n + 1, l => ladderDownN n (ladderDown l)

/-- The highest ceiling in force: the set clock, boost, or the base clock (R368, R379). -/
def ceilingTop (e : PwrSet) : Nat := if e.ffMhz ≠ 0 then e.ffMhz / 25 else if e.boost then 72 else 60

/-- One step up. -/
def ladderUp (l : Limits) : Limits :=
  if l.ceiling < 16 then { l with ceiling := l.ceiling + 1 }
  else if l.duty < 16 then { l with duty := l.duty + 1 }
  else if l.ceiling < ceilingTop l.eff then { l with ceiling := l.ceiling + 1 }
  else l

/-! ### The control interval (R369, R371, R372, R375, R378, R382 to R385) -/

/-- The limits that the projections of an interval pass: brake, rails W and E, PPL, ramp (R371). -/
structure Binds where
  brake : Bool
  railW : Bool
  railE : Bool
  ppl : Bool
  ramp : Bool
  deriving DecidableEq, Repr

/-- The braked draw (R378). -/
def brakeWatts (l : Limits) : Nat := l.eff.brakePct * l.eff.pplW / 100

/-- What the present window may draw in the mean (R372). -/
def pplAllowance (l : Limits) : Nat := l.eff.pplWindow * l.limit - (l.hist.take (l.eff.pplWindow - 1)).sum

/-- The energy of a 100 µs interval in W times 4 µs: its 25 control intervals, the last one as projected (R372). -/
def draw100 (l : Limits) (i : LimitIn) : Nat := i.drawW + i.lastW + (l.recent.take 23).sum

/-- The limits passed in an interval (R371 to R373, R375, R378, R383). -/
def bindsOf (l : Limits) (i : LimitIn) : Binds where
  brake := l.brake && decide (brakeWatts l < i.drawW)
  railW := decide (l.eff.railW < i.railW)
  railE := decide (l.eff.railE < i.railE)
  ppl := decide (pplAllowance l < i.windowW) || decide (30 * l.limit < draw100 l i) ||
    (l.tight && decide (6 * l.limit < 5 * i.drawW))
  ramp := l.eff.rampW != 0 && decide (l.hi < l.limit) && decide (l.hi < i.windowW)

/-- The draw is at least 2% below every limit in force (R369). -/
def clearBelow (l : Limits) (i : LimitIn) : Bool :=
  let low (w lim : Nat) : Bool := decide (100 * w ≤ 98 * lim)
  low i.drawW l.limit && low i.windowW (pplAllowance l) && low (draw100 l i) (30 * l.limit) &&
    (!l.brake || low i.drawW (brakeWatts l)) && (l.eff.rampW == 0 || low i.windowW l.hi) && low i.railW l.eff.railW &&
    low i.railE l.eff.railE

/-- Ballast in 1/64 of the free flight cycles, as R385 sets it within the capacity and the room R384 leaves, rounded down
(log entry 41); `left` is the time left in the window. -/
def ballastSteps (l : Limits) (left : Nat) (i : LimitIn) : Nat :=
  let own := i.lastW - i.ballastW
  let need := (l.lo * 2 ^ 20 - i.energy) / left
  let w := min (need - own) (min i.capacityW (min (6 * l.limit / 5 - own) i.railRoomW))
  if i.capacityW = 0 then 0 else 64 * w / i.capacityW

/-- The ladder stands at its top. -/
def atTop (l : Limits) : Bool := decide (ceilingTop l.eff ≤ l.ceiling) && decide (16 ≤ l.duty)

/-- A hall's flight issue duty: down to what its rail allows, up by one step otherwise (R375). -/
def railDuty (binds : Bool) (now allowed : Nat) : Nat := if binds then min now allowed else min 16 (now + 1)

/-- The ladder after an interval: down as far as the limits that the projections pass require, up one step where the
draw is 2% below all of them; the set clock while fixed-frequency mode is in force (R369, R379). -/
def ladderNext (l : Limits) (i : LimitIn) : Limits :=
  let b := bindsOf l i
  let held := l.eff.ffMhz != 0 && !l.ffSuspended
  let m := if held then { l with ceiling := l.eff.ffMhz / 25, duty := 16 } else l
  if (b.brake || b.ppl || b.ramp) && i.stepsDown != 0 then ladderDownN (min i.stepsDown 80) m
  else if clearBelow l i then ladderUp m else m

/-- What binds after an interval: what the projections pass, and what holds the ladder or a hall's duty down still. -/
def bindsNext (l m : Limits) (i : LimitIn) : Binds :=
  let b := bindsOf l i
  let down := i.stepsDown != 0
  { brake := (b.brake && down) || (l.heldBrake && !(atTop m))
    railW := decide (railDuty b.railW l.dutyW i.dutyW < 16)
    railE := decide (railDuty b.railE l.dutyE i.dutyE < 16)
    ppl := (b.ppl && down) || (l.heldPpl && !(atTop m))
    ramp := (b.ramp && down) || (l.heldRamp && !(atTop m)) }

/-- The mechanism of the highest rank that binds, as event 0x2004 names it (R371, R505). -/
def ffCauseOf (l : Limits) (b : Binds) : Nat :=
  if b.brake then 2
  else if b.railW || b.railE then 6
  else if b.ppl then (if l.limit = l.eff.pplW then 7 else if l.sensOn && l.limit == l.eff.pplW / 2 then 3 else 4)
  else if b.ramp then 8 else 0

/-- The limiters' settings after an interval, with the cause for which they are below the set clock; 0 where they are
not (R369, R371, R375, R382, R384). -/
def limiterNext (l : Limits) (left : Nat) (i : LimitIn) : Limits × Nat :=
  let p := bindsOf l i
  let m := ladderNext l i
  let h := bindsNext l m i
  let w := railDuty p.railW l.dutyW i.dutyW
  let e := railDuty p.railE l.dutyE i.dutyE
  let high := p.brake || p.railW || p.railE || p.ppl || h.brake || h.railW || h.railE || h.ppl
  let ballast := if high || (p.ramp && i.stepsDown != 0) then 0 else ballastSteps l left i
  let below := l.eff.ffMhz != 0 &&
    (decide (m.ceiling < l.eff.ffMhz / 25) || decide (m.duty < 16) || decide (w < 16) || decide (e < 16))
  ({ m with
      ballast := ballast, dutyW := w, dutyE := e, railBoundW := h.railW, railBoundE := h.railE
      heldBrake := h.brake, heldPpl := h.ppl, heldRamp := h.ramp
      pplBound := l.pplBound || h.ppl, rampBound := l.rampBound || h.ramp
      highNow := l.highNow || h.brake || h.railW || h.railE || h.ppl
      boundNow := l.boundNow || h.brake || h.railW || h.railE || h.ppl || h.ramp
      ballastUsed := l.ballastUsed || decide (0 < ballast)
      recent := (i.lastW :: l.recent).take 23 },
    if below then ffCauseOf l h else 0)

/-- Fixed-frequency mode is suspended for a cause (R382). -/
def ffSuspend (cause : Nat) (d : Dev) : Dev :=
  if d.pwr.lim.ffSuspended || d.pwr.lim.eff.ffMhz = 0 then d
  else
    let d := limMod (fun l => { l with ffSuspended := true }) d
    emit 0x2004 0 (BitVec.ofNat 64 (1 + 256 * cause)) (cntInc (pwrBase + 0x348) d)

/-- A control interval of 4 µs. -/
def limiterInterval (i : LimitIn) (d : Dev) : Dev :=
  let (l, cause) := limiterNext d.pwr.lim (2 ^ 20 - d.tim.count.toNat % 2 ^ 20) i
  let d := limMod (fun _ => { l with ffCause := cause }) d
  let d := if cause ≠ 0 then ffSuspend cause d else d
  let d := cntIf l.railBoundW (pwrBase + 0x308) (cntIf l.railBoundE (pwrBase + 0x310) d)
  settleClocks d

/-! ### The power window boundary (R44, R51, R291, R302, R372 to R374, R383, R384, R386 to R388) -/

/-- The account of the closed window: charges of the active contexts, everything else overhead (R386 to R388). -/
def closeAccount (m : Meter) (d : Dev) : Dev :=
  let charge (n : Nat) : Nat := if ctxValid d n then m.slots.getD n 0 else 0
  let own := ((List.range 32).map charge).sum
  let rest := m.overhead + (m.slots.sum - own)
  let grow (v : W64) (n : Nat) : W64 := BitVec.ofNat 64 (satAdd (2 ^ 64 - 1) v.toNat n)
  let ctx := (List.range 32).foldl (fun e n => spMod 0 n (fun v => grow v (charge n)) e) d.pwr.ctxEnergy
  { d with pwr := { d.pwr with
      ctxEnergy := ctx, overhead := grow d.pwr.overhead rest, ballastE := grow d.pwr.ballastE m.ballast
      total := grow d.pwr.total (own + rest) } }

/-- The closed window: its counters, flags and history. -/
def closeWindow (mean : Nat) (d : Dev) : Dev :=
  let l := d.pwr.lim
  let short := decide (mean < l.lo) && !l.highNow
  let stuck := l.ceiling == 4 && l.duty == 0 && decide (l.limit < mean)
  let d := cntIf l.pplBound (pwrBase + 0x300) (cntIf l.rampBound (pwrBase + 0x318) d)
  let d := cntIf l.ballastUsed (pwrBase + 0x320) (cntIf short (pwrBase + 0x328) (cntIf stuck (pwrBase + 0x338) d))
  limMod (fun l => { l with
    floorShort := short
    capUnreachable := if stuck then true else if mean ≤ l.limit then false else l.capUnreachable
    hist := (mean :: l.hist).take 10
    drawW := mean
    boundPrev := l.boundNow, boundNow := false, highNow := false, pplBound := false, rampBound := false
    ballastUsed := false }) d

/-- Actions too late are cancelled; those due take effect, in the order of acceptance; the settings of the new window (R51, R52, R370, R407). -/
def openSettings (d : Dev) : Dev :=
  let d := schedMissed d
  let due := schedDue d
  let d := due.foldl (fun d a => schedApply a d) { d with tim := { d.tim with
    sched := d.tim.sched.filter (fun a => !(due.contains a)) } }
  let e := settingsNow d
  limMod (fun l => { l with eff := e, ffSuspended := l.ffSuspended && e.ffMhz != 0 }) d

/-- 150 s without a heartbeat (R467). -/
def lostCapDue (d : Dev) : Bool := d.kmd.mgmtLost && decide (d.kmd.hbAt + 150 * 10 ^ 9 ≤ d.tim.now)

/-- L at a boundary (R373, R467). -/
def openLimit (lost : Bool) (d : Dev) : Dev :=
  let l := d.pwr.lim
  let reason := if lost != l.lostCap then 3 else if d.pwr.cool.sensingDegraded != l.sensOn then 2 else 1
  applyLimit reason (limMod (fun l => { l with lostCap := lost, sensOn := d.pwr.cool.sensingDegraded }) d)

/-- The bounds of the new window (R383). -/
def openBounds (mean : Nat) (d : Dev) : Dev :=
  limMod (fun l =>
    let r := l.eff.rampW
    let hi := if r = 0 then l.limit else min l.limit (mean + r)
    let lo := if r = 0 then l.eff.floorW else max l.eff.floorW (mean - r)
    { l with hi := hi, lo := min lo hi, floorCapped := decide (l.limit < l.eff.floorW) }) d

/-- The set clock returns once every cause of the suspension has ended (R382). -/
def ffResume (d : Dev) : Dev :=
  let hot := (List.range 12).any (fun g =>
    let x := galGet d g
    decide (25 * x.own < d.pwr.lim.eff.ffMhz) || decide (x.duty < 16))
  if d.pwr.lim.ffSuspended && d.pwr.lim.ffCause == 0 && !hot then
    emit 0x2004 0 0 (limMod (fun l => { l with ffSuspended := false }) d)
  else d

/-- The window account of a lane closes (R291). -/
def closeLane (limit : Nat) (x : Lane) : Lane :=
  { x with fecRun := if limit < x.corr then x.fecRun + 1 else 0, uncorrHist := (x.uncorr :: x.uncorrHist).take 4
           corr := 0, uncorr := 0 }

/-- The window accounts of a port close (R291, R302). -/
def closePort (d : Dev) (x : Port) : Port :=
  lanesMod (closeLane (objGet d 0x440007)) { x with
    retryRun := if objGet d 0x440008 < x.badUnits then x.retryRun + 1 else 0, badUnits := 0
    trigPrev := x.trigNow, trigNow := false }

/-- A power window boundary. -/
def powerBoundary (m : Meter) (d : Dev) : Dev :=
  let d := toBoundary (2 ^ 20) d.tim.powWin d
  let d := timChange (fun t => { t with
    powWin := t.count.toNat / 2 ^ 20, windowsUnaligned := t.windowsUnaligned && !t.alignDue, alignDue := false }) d
  let lost := d.kmd.mgmtLost && (d.pwr.lim.lostCap || lostCapDue d)
  let d := pwrChange (fun d => settleClocks (ffResume (openBounds m.meanW (openLimit lost (openSettings
    (closeWindow m.meanW (closeAccount m d))))))) d
  expProtectAll ((List.range 16).foldl (fun d p => portMod p (closePort d) d) d)

/-! ### Droop and self-throttle (R376, R377, R390) -/

/-- The stretch level of a droop in mV. -/
def droopLevel (mv : Nat) : Nat := if 70 ≤ mv then 3 else if 45 ≤ mv then 2 else if 25 ≤ mv then 1 else 0

/-- A droop stretches the clock, and a deeper one raises the stretch. -/
def droop (g mv : Nat) (d : Dev) : Dev :=
  galMod g (fun x => { x with stretch := max x.stretch (droopLevel mv), deepest := max x.deepest (droopLevel mv) }) d

/-- The stretch ends: counted at its deepest level, with its landing cycles. -/
def droopRelease (g cycles : Nat) (d : Dev) : Dev :=
  let x := galGet d g
  if x.stretch = 0 then d
  else
    let d := cntAdd (galBase g + 0x218) cycles (cntInc (galBase g + 0x1F8 + 8 * x.deepest) d)
    galMod g (fun x => { x with stretch := 0, deepest := 0 }) d

/-- A gallery at its own throttle threshold steps down; 2 K below it steps up (R390). -/
def selfThrottle (g : Nat) (d : Dev) : Dev :=
  let x := galGet d g
  let tj : Int := (d.pwr.lim.eff.tjC : Int) * 10
  match galHot x with
  | none => d
  | some t =>
    if tj ≤ t then
      let clk := min x.own x.clk
      if clk ≤ 16 ∧ x.duty = 0 then d
      else
        let y := if 16 < clk then { x with own := clk - 1 } else { x with own := 16, duty := x.duty - 1 }
        let d := cntInc (galBase g + 0x220) (galMod g (fun _ => { y with selfThrottle := true }) d)
        if ffOn d && (decide (25 * y.own < d.pwr.lim.eff.ffMhz) || decide (y.duty < 16)) then
          settleClocks (ffSuspend 5 (pwrEvtBit 5 (cntInc (pwrBase + 0x350) d)))
        else settleClocks d
    else if t ≤ tj - 20 then
      galMod g (fun x =>
        let y := if x.duty < 16 then { x with duty := x.duty + 1 } else { x with own := min 72 (x.own + 1) }
        { y with selfThrottle := decide (y.own < 72) || decide (y.duty < 16) }) d
    else d

/-! ### Temperatures (R27, R389, R391, R392, R398) -/

/-- A thermal trip (R391). -/
def thermalTrip (d : Dev) : Dev :=
  offRequest (setCause 7 (stopNow (supMod (fun s => { s with tripLatched := true }) d)))

/-- The rails that must be on for a sensor to be read: galleries 0 to 47, hub and port tiles 48 to 63, stacks 64 to 71,
mezzanine layers 72 to 87 (R389). -/
def sensorPowered (d : Dev) (n : Nat) : Bool :=
  if n < 64 then d.pwr.supply.mainRails == .on else decide (n < 88) && d.pwr.supply.memRails == .on

/-- A junction sensor reads more than 2 K below the inlet. -/
def junctionLow (d : Dev) (v : Option Int) : Bool :=
  match v, d.pwr.cool.inletDc with
  | some t, some i => decide (t < i - 20)
  | _, _ => false

/-- The check of junction against coolant, over every junction sensor that is read (R398). -/
def checkJunctions (d : Dev) : Dev :=
  let low (g : Nat) : Bool := (galGet d g).tj.any (fun e => junctionLow d e.2)
  let d := (List.range 12).foldl (fun d g => if low g then galMod g (fun x => { x with sensorFault := true }) d else d) d
  evalCheck 1 ((List.range 12).any low || d.pwr.cool.sensors.any (fun e => decide (e.1 < 16) && junctionLow d e.2)) d

/-- A layer's refresh doubles while its hottest sensor reads 85 °C or above (R27). -/
def layerRefresh (d : Dev) : Dev :=
  { d with memc := { d.memc with mezz2x := hotLayers d.pwr.cool.sensors } }

/-- A reading of a junction, stack or mezzanine sensor. -/
def junctionSample (n : Nat) (v : Option Int) (d : Dev) : Dev :=
  if !(sensorPowered d n) then d
  else
    let d := if n < 48 then galMod (n / 4) (fun x => { x with tj := spPut none (n % 4) v x.tj }) d
      else layerRefresh (coolMod (fun c => { c with sensors := spPut none (n - 48) v c.sensors }) d)
    let d := if n < 64 then checkJunctions d else d
    match v with
    | some t => if 1100 ≤ t ∧ d.pwr.supply.tripLatched = false then thermalTrip d else d
    | none => d

/-- A reading of the coolant sensors. -/
def coolantSample (inlet outlet : Option Int) (d : Dev) : Dev :=
  if !d.rst.aon then d
  else
    let d := coolMod (fun c => { c with inletDc := inlet, outletDc := outlet }) d
    let off (v : Option Int) : Bool :=
      match v with
      | some t => decide (t < 0) || decide (800 < t)
      | none => false
    let cold := match inlet, outlet with
      | some i, some o => decide (o < i - 10) && decide (500 ≤ d.pwr.lim.drawW)
      | _, _ => false
    checkJunctions (evalCheck 3 (off inlet || off outlet || cold) d)

/-- The inlet has been above 45 °C for 1 s, or at or below 44 °C for 10 s (R392). -/
def coolantHot (on : Bool) (d : Dev) : Dev :=
  match d.pwr.cool.inletDc with
  | none => d
  | some t =>
    if (if on then decide (450 < t) else decide (t ≤ 440)) then pwrChange (coolMod (fun c => { c with coolantHot := on })) d
    else d

/-- A sensor of a gallery has, or has not, followed a rise of the draw (R398). -/
def junctionStatic (g : Nat) (rise : Int) (d : Dev) : Dev :=
  let fails := decide (rise < 20)
  let d := if fails then galMod g (fun x => { x with sensorFault := true }) d else d
  pwrChange (evalCheck 2 fails) d

/-- Flow in mL/min times the volumetric heat in J/(L K), by the coolant type (R398). -/
def flowHeat (d : Dev) : Nat := objGet d 0x230002 * (if d.pwr.lim.eff.coolant = 1 then 3978 else 4167)

/-- A 1 s mean of the heat balance (R398). -/
def heatBalance (meanW : Nat) (inlet outlet : Int) (d : Dev) : Dev :=
  let fresh := match d.pwr.cool.flowWritten with
    | some t => decide (d.tim.now ≤ t + 10 * 10 ^ 9)
    | none => false
  if meanW < 500 ∨ fresh = false then pwrChange (coolMod (fun c => { c with balanceSuspended := true })) d
  else
    let p : Int := (meanW : Int) * 600000
    let bad := decide (p < 4 * (((flowHeat d : Int) * (outlet - inlet) - p).natAbs : Int))
    let d := coolMod (fun c => { c with balanceSuspended := false, balanceRun := if bad then c.balanceRun + 1 else 0 }) d
    pwrChange (evalCheck 4 (bad && decide (10 ≤ d.pwr.cool.balanceRun))) d

/-! ### Coolant flow and leak sensing (R394 to R397) -/

/-- What prevails of two stops that meet in one Withdraw: the removal of EN_MAIN ends in the other stop (R415). -/
def widerStop (old new : AfterWithdraw) : AfterWithdraw :=
  match new, old with
  | .railsOff, .flowStop => .flowStop
  | .railsOff, .leakStop => .leakStop
  | .flowStop, .leakStop => .leakStop
  | w, _ => w

/-- A stop that runs Withdraw first, with or without an ACTIVE port; it prevails over a Withdraw in progress (R365, R395,
R397, R415). -/
def stopAfterWithdraw (why : AfterWithdraw) (s : State) : State :=
  if moduleRuns s.dev then
    { s with dev :=
        match s.dev.rst.withdraw with
        | some w => { s.dev with rst := { s.dev.rst with withdraw := some (widerStop w why) } }
        | none => withdrawBegin why s.dev }
  else afterWithdraw why s

/-- An edge of FLOW_PULSE, so many µs after the one before (R394). -/
def flowEdge (us : Nat) (d : Dev) : Dev :=
  if extestOn d then d
  else coolMod (fun c => if 400 ≤ us ∧ us ≤ 600 then { c with flowRun := c.flowRun + 1 } else { c with flowRun := 0, flowGood := false }) d

/-- 5 ms since the last good edge; declared only while PG_MAIN is high (R394, R395). -/
def flowLost (s : State) : State :=
  let d := coolMod (fun c => { c with flowRun := 0, flowGood := false }) s.dev
  if d.pwr.supply.mainRails ≠ .on ∨ d.pwr.cool.flowStopped = true ∨ latchedOff d = true then { s with dev := d }
  else
    let d := setCause 8 (emit 0x2005 0 0 (cntInc (pwrBase + 0x360) (coolMod (fun c => { c with flowStopped := true }) d)))
    stopAfterWithdraw .flowStop { s with dev := d }

/-- The pulse has been good for 1 s: after a stop a system reset, which is not counted (R394, R395, R452). -/
def flowRestored (s : State) : State :=
  let d := s.dev
  if d.pwr.cool.flowRun = 0 ∨ extestOn d = true then s
  else
    let stopped := d.pwr.cool.flowStopped
    let d := coolMod (fun c => { c with flowGood := true, flowStopped := false }) d
    if stopped && !(latchedOff d) then systemResetNow { s with dev := { d with rst := { d.rst with withdraw := none } } }
    else { s with dev := railsEval d }

/-- The reading of the leak loop: 0 dry, 1 wet, 2 fault (R396). -/
def leakBand (mv : Nat) : Nat :=
  if 900 ≤ mv ∧ mv ≤ 1100 then 0 else if 100 ≤ mv ∧ mv < 800 then 1 else 2

/-- A sample of the leak loop (R396). -/
def leakSample (mv : Nat) (d : Dev) : Dev :=
  let b := leakBand mv
  let old := d.pwr.cool.leakReading
  let d := coolMod (fun c => { c with
    leakReading := b
    wetRun := if b = 1 then c.wetRun + 1 else 0
    faultRun := if b = 2 then c.faultRun + 1 else 0
    dryRun := if b = 0 then c.dryRun + 1 else 0 }) d
  railsEval (if b = old then d else emit 0x2006 0 (BitVec.ofNat 64 b) d)

/-- Ten wet samples in a row: the module stops and latches off (R397). -/
def leakWet (s : State) : State :=
  let d := s.dev
  if d.pwr.cool.wetRun < 10 ∨ d.pwr.cool.leakLatched = true then s
  else stopAfterWithdraw .leakStop { s with dev := coolMod (fun c => { c with leakLatched := true }) d }

/-- A hundred fault samples in a row (R397). -/
def leakLoopFault (d : Dev) : Dev :=
  if d.pwr.cool.faultRun < 100 ∨ d.pwr.cool.leakFault = true then d
  else railsEval (pwrChange (fun d => enterSensing 5 (cntInc (pwrBase + 0x368) (coolMod (fun c => { c with leakFault := true }) d))) d)

/-- A hundred dry samples in a row (R397). -/
def leakDry (d : Dev) : Dev :=
  if d.pwr.cool.dryRun < 100 then d else pwrChange (coolMod (fun c => { c with leakFault := false })) d

/-! ### Supply and rails (R363 to R366) -/

/-- The input lies in its operating range. -/
def inputOk (mv : Nat) : Bool := decide (40000 ≤ mv ∧ mv ≤ 59500)

/-- The memory rails or the main rails are on. -/
def railsOn (d : Dev) : Bool := d.pwr.supply.memRails == .on || d.pwr.supply.mainRails == .on

/-- The input measured, and how long it has stood in its present band (R363, R366). -/
def inputSample (mv us : Nat) (d : Dev) : Dev :=
  let d := supMod (fun s =>
    let ok := if inputOk mv then us else 0
    { s with inputMv := mv, inputHist := (mv :: s.inputHist).take 1000, okUs := ok, supplyHold := s.supplyHold && decide (ok < 100000) }) d
  railsEval d

/-- The input has been marginal, or back in range, for 1 ms (R363). -/
def inputMarginal (on : Bool) (d : Dev) : Dev :=
  let mv := d.pwr.supply.inputMv
  let fits := if on then !(inputOk mv) && decide (38000 ≤ mv ∧ mv ≤ 61000) && railsOn d else inputOk mv
  if !fits || d.pwr.supply.marginal == on then d
  else pwrChange (fun d => cntIf on (pwrBase + 0x370) (supMod (fun s => { s with marginal := on }) d)) d

/-- The input has been out of every band for 50 µs while a rail is on (R363, R366). -/
def supplyFault (d : Dev) : Dev :=
  let mv := d.pwr.supply.inputMv
  if (38000 ≤ mv ∧ mv ≤ 61000) ∨ railsOn d = false then d
  else
    let d := setCause 10 (stopNow d)
    let d := offRequest { d with rst := { d.rst with held := true, step := 1 } }
    dropUnread (supMod (fun s => { s with
      memRails := .off, mainRails := .off, enRearm := true, supplyHold := true, enMainEarly := false }) d)

/-- The main rails go off: after Withdraw where the module runs (R365). -/
def mainDown (s : State) : State :=
  match s.dev.pwr.supply.mainRails with
  | .on =>
    if moduleRuns s.dev then stopAfterWithdraw .railsOff s else { s with dev := mainRailsOff s.dev }
  | .rising => { s with dev := mainRailsOff s.dev }
  | _ => if s.dev.pwr.supply.enMem then s else { s with dev := mainRailsOff s.dev }

/-- EN_MEM; its removal first is taken as the removal of both (R364, R365, R570). -/
def enMem (level : Bool) (us : Nat) (s : State) : State :=
  let v := pinLevel s.dev 12 level
  if us < 10 then s
  else if v then { s with dev := railsEval (supMod (fun x => { x with enMem := true }) s.dev) }
  else mainDown { s with dev := enablesOff (supMod (fun x => { x with enMem := false, enMainEarly := false }) s.dev) }

/-- EN_MAIN (R364, R365, R570). -/
def enMain (level : Bool) (us : Nat) (s : State) : State :=
  let v := pinLevel s.dev 13 level
  if us < 10 then s
  else if v then
    { s with dev := railsEval (supMod (fun x => { x with enMain := true, enMainEarly := !(memSettled s.dev) }) s.dev) }
  else mainDown { s with dev := enablesOff (supMod (fun x => { x with enMain := false, enMainEarly := false }) s.dev) }

/-- PG_MEM has been high for 1 ms with EN_MAIN asserted too early (R364). -/
def enMainActed (d : Dev) : Dev :=
  if d.pwr.supply.enMainEarly && d.pwr.supply.memRails == .on then
    railsEval (supMod (fun x => { x with enMainEarly := false }) (advanceTo (d.pwr.supply.memSince + 10 ^ 6) d))
  else d

/-- Rails that were rising are in regulation: PG_MEM or PG_MAIN high (R365). -/
def railRegulated (main : Bool) (d : Dev) : Dev :=
  if main then
    (if d.pwr.supply.mainRails = .rising then supMod (fun s => { s with mainRails := .on, pwrOffReq := latchedOff d }) d else d)
  else if d.pwr.supply.memRails = .rising then supMod (fun s => { s with memRails := .on, memSince := d.tim.now }) d
  else d

/-- Rails not in regulation 100 ms after their enable: the other rails are held off (R365). -/
def railTimeout (rail : Nat) (d : Dev) : Dev :=
  if rail = 1 ∧ d.pwr.supply.memRails = .rising then
    supMod (fun s => { s with memRails := .failed, stopRail := 1, enRearm := true }) d
  else if rail = 2 ∧ d.pwr.supply.mainRails = .rising then
    dropUnread (supMod (fun s => { s with mainRails := .failed, memRails := .off, stopRail := 2, enRearm := true }) d)
  else d

/-- The brake pin, low or high for 1 µs (R378). -/
def brakePin (level : Bool) (ns : Nat) (d : Dev) : Dev :=
  let on := !(pinLevel d 16 level)
  if ns < 1000 ∨ d.pwr.lim.brake = on then d
  else pwrChange (fun d => cntIf on (pwrBase + 0x330) (limMod (fun l => { l with brake := on, heldBrake := l.heldBrake && on })
    (supMod (fun s => { s with brakePin := on }) d))) d

/-! ### Host registers (R381, R402) -/

/-- PWR_CAP: the cap of the next boundary. -/
def pwrCapWrite (v : W32) (d : Dev) : Dev :=
  let w := fieldN v 11 0
  let d' := schedAdd ⟨0, .cap w⟩ d
  if !(isLive d) || ffConflict d' then refuseState d
  else if w < 450 ∨ 3000 < w then refuseRange d
  else d'

/-- PWR_FF: the fixed frequency of the next boundary. A value out of range is no frequency that R381 could compare. -/
def pwrFfWrite (v : W32) (d : Dev) : Dev :=
  let m := fieldN v 10 0
  let d' := schedAdd ⟨0, .ff m⟩ d
  if !(isLive d) then refuseState d
  else if !(ffValue m) then refuseRange d
  else if ffConflict d' then refuseState d
  else d'

/-! ### The commands -/

/-- POWER_WINDOW_BOUNDARY (R51). -/
def execPowerWindowBoundary (m : Meter) (s : State) : Host.Outcome State Fault Refusal :=
  .next (if hubUp s.dev then onDev (powerBoundary m) s else s)

/-- LIMITER_INTERVAL (R369). -/
def execLimiterInterval (i : LimitIn) (s : State) : Host.Outcome State Fault Refusal :=
  .next (if hubUp s.dev then onDev (pwrChange (limiterInterval i)) s else s)

/-- RAIL_VOLTAGE_REACHED (R367). -/
def execRailVoltageReached (hall : Fin 2) (s : State) : Host.Outcome State Fault Refusal :=
  .next (if hubUp s.dev then onDev (raiseClocks hall.val) s else s)

/-- PWR_BRAKE_N (R378). -/
def execPwrBrakeN (level : Bool) (heldNs : Nat) (s : State) : Host.Outcome State Fault Refusal :=
  .next (onDev (brakePin level heldNs) s)

/-- DROOP (R376). -/
def execDroop (g : Fin 12) (mv : Nat) (s : State) : Host.Outcome State Fault Refusal :=
  .next (if hubUp s.dev then onDev (droop g.val mv) s else s)

/-- DROOP_RELEASE (R376). -/
def execDroopRelease (g : Fin 12) (cycles : Nat) (s : State) : Host.Outcome State Fault Refusal :=
  .next (clocked (onDev (droopRelease g.val cycles)) s)

/-- JUNCTION_SAMPLE (R391). -/
def execJunctionSample (sensor : Nat) (deciC : Option Int) (s : State) : Host.Outcome State Fault Refusal :=
  .next (onDev (pwrChange (junctionSample sensor deciC)) s)

/-- SELF_THROTTLE_STEP (R390). -/
def execSelfThrottleStep (g : Fin 12) (s : State) : Host.Outcome State Fault Refusal :=
  .next (if hubUp s.dev then onDev (pwrChange (selfThrottle g.val)) s else s)

/-- COOLANT_SAMPLE (R389). -/
def execCoolantSample (inlet outlet : Option Int) (s : State) : Host.Outcome State Fault Refusal :=
  .next (onDev (pwrChange (coolantSample inlet outlet)) s)

/-- COOLANT_HOT (R392). -/
def execCoolantHot (on : Bool) (s : State) : Host.Outcome State Fault Refusal := .next (onDev (coolantHot on) s)

/-- FLOW_PULSE_EDGE (R394). -/
def execFlowPulseEdge (sinceUs : Nat) (s : State) : Host.Outcome State Fault Refusal := .next (onDev (flowEdge sinceUs) s)

/-- FLOW_LOST (R395). -/
def execFlowLost (s : State) : Host.Outcome State Fault Refusal := .next (flowLost s)

/-- LEAK_SAMPLE (R396). -/
def execLeakSample (mv : Nat) (s : State) : Host.Outcome State Fault Refusal := .next (onDev (leakSample mv) s)

/-- LEAK_WET (R397). -/
def execLeakWet (s : State) : Host.Outcome State Fault Refusal := .next (leakWet s)

/-- LEAK_LOOP_FAULT (R397). -/
def execLeakLoopFault (s : State) : Host.Outcome State Fault Refusal := .next (onDev leakLoopFault s)

/-- LEAK_DRY (R397). -/
def execLeakDry (s : State) : Host.Outcome State Fault Refusal := .next (onDev leakDry s)

/-- HEAT_BALANCE_CHECK (R398). -/
def execHeatBalanceCheck (meanW : Nat) (inlet outlet : Int) (s : State) : Host.Outcome State Fault Refusal :=
  .next (onDev (heatBalance meanW inlet outlet) s)

/-- JUNCTION_STATIC_CHECK (R398). -/
def execJunctionStaticCheck (g : Fin 12) (rise : Int) (s : State) : Host.Outcome State Fault Refusal :=
  .next (onDev (junctionStatic g.val rise) s)

/-- INPUT_SAMPLE (R363). -/
def execInputSample (mv heldUs : Nat) (s : State) : Host.Outcome State Fault Refusal :=
  .next (onDev (inputSample mv heldUs) s)

/-- INPUT_MARGINAL (R363). -/
def execInputMarginal (on : Bool) (s : State) : Host.Outcome State Fault Refusal := .next (onDev (inputMarginal on) s)

/-- SUPPLY_FAULT (R366). -/
def execSupplyFault (s : State) : Host.Outcome State Fault Refusal := .next (onDev supplyFault s)

/-- EN_MEM (R365). -/
def execEnMem (level : Bool) (heldUs : Nat) (s : State) : Host.Outcome State Fault Refusal := .next (enMem level heldUs s)

/-- EN_MAIN (R365). -/
def execEnMain (level : Bool) (heldUs : Nat) (s : State) : Host.Outcome State Fault Refusal := .next (enMain level heldUs s)

/-- EN_MAIN_ACTED_ON (R364). -/
def execEnMainActedOn (s : State) : Host.Outcome State Fault Refusal := .next (onDev enMainActed s)

/-- RAIL_REGULATED (R365). -/
def execRailRegulated (main : Bool) (s : State) : Host.Outcome State Fault Refusal := .next (onDev (railRegulated main) s)

/-- RAIL_TIMEOUT (R365). -/
def execRailTimeout (rail : Nat) (s : State) : Host.Outcome State Fault Refusal := .next (onDev (railTimeout rail) s)

/-- PWR_CAP (R402). -/
def execPwrCap (v : W32) (s : State) : Host.Outcome State Fault Refusal := .next (fromHost (onDev (pwrCapWrite v)) s)

/-- PWR_FF (R402). -/
def execPwrFf (v : W32) (s : State) : Host.Outcome State Fault Refusal := .next (fromHost (onDev (pwrFfWrite v)) s)

end Sys2Proof.Machine
end

