-- ==== Sys2Proof/Machine/Firmware.lean ====
section
/-! DEFINITION. Flash, images and their verification, the boot ROM, the service port, and the trial of an image (R517
to R531). -/

namespace Sys2Proof.Machine

def fwMod (f : Fw → Fw) (d : Dev) : Dev := { d with fw := f d.fw }

/-! ### Flash (R517) -/

def flashErased : Byte := 0xFF
def slotFlash (n : Nat) : Nat := n * 0x2000000
def stagingFlash : Nat := 0x4000000
def stagingSize : Nat := 0x2000000
def logFlash : Nat := 0x7000000
def flashEnd : Nat := 0x8000000

/-- `n` bytes of flash from an offset. -/
def flashRead (fw : Fw) (off n : Nat) : List Byte := (List.range n).map (fun i => spGet flashErased fw.flash (off + i))

/-- Bytes programmed from an offset on. -/
def flashPut : Nat → List Byte → List Host.Cell → List Host.Cell
  | _, [], m => m
  | o, b :: t, m => flashPut (o + 1) t (spPut flashErased o b m)

/-- A range erased. -/
def flashErase (lo n : Nat) (m : List Host.Cell) : List Host.Cell := spErase (fun k => decide (lo ≤ k ∧ k < lo + n)) m

/-- A slot made a copy of staging (R526). -/
def flashCopy (slot : Nat) (m : List Host.Cell) : List Host.Cell :=
  (m.filter (fun e => decide (stagingFlash ≤ e.1 ∧ e.1 < stagingFlash + stagingSize))).foldl
    (fun m e => spPut flashErased (slotFlash slot + (e.1 - stagingFlash)) e.2 m) (flashErase (slotFlash slot) stagingSize m)

/-! ### Images (R519, R520) -/

/-- A little-endian field of the header at a flash offset. -/
def imgField (fw : Fw) (base i n : Nat) : Nat := leNat (flashRead fw (base + i) n)

def imgVersion (fw : Fw) (base : Nat) : Nat := imgField fw base 12 4
def imgSecurity (fw : Fw) (base : Nat) : Nat := imgField fw base 9 1
def imgConfig (fw : Fw) (base : Nat) : Nat := imgField fw base 20 4

/-- Magic, header version, reserved bytes and payload length. -/
def headerOk (fw : Fw) (base : Nat) : Bool :=
  imgField fw base 0 4 == 0x57465A45 && imgField fw base 4 2 == 1 && imgField fw base 11 1 == 0 &&
    imgField fw base 24 8 == 0 && decide (1 ≤ imgField fw base 16 4 ∧ imgField fw base 16 4 ≤ 33550336) &&
    (flashRead fw (base + 80) 3920).all (· == 0)

/-- The verification of an image: 0, or the first check that fails (R520). -/
def imageVerify (fw : Fw) (base : Nat) : Nat :=
  let key := imgField fw base 10 1
  if !(headerOk fw base) then 1
  else if imgField fw base 6 2 ≠ 0x4B04 ∨ 0xB0 < imgField fw base 8 1 then 2
  else if key < 4 ∧ fw.revoked.getLsbD key = true then 3
  else if sha384 (flashRead fw (base + 4096) (imgField fw base 16 4)) ≠ flashRead fw (base + 32) 48 then 4
  else if key ≥ 4 ∨ Config.ecdsaVerify key (sha384 (flashRead fw base 4000)) (flashRead fw (base + 4000) 96) = false then 5
  else if imgSecurity fw base < fw.secFuse then 6
  else 0

def slotOk (fw : Fw) (n : Nat) : Bool := imageVerify fw (slotFlash n) == 0

/-! ### The boot ROM (R526, R529) -/

/-- fw_version in bytes 4 to 7 of an event's detail, and a first byte. -/
def fwDetail (b v : Nat) : W64 := BitVec.ofNat 64 (b + v * 2 ^ 32)

/-- A committed image is copied into the slot that is not active, and its trial begins; a copy that does not verify
leaves the slot erased and the staging state REJECTED (log entry 97). -/
def bootInstall (copyBad : Bool) (d : Dev) : Dev :=
  if d.fw.stState = 2 ∧ imageVerify d.fw stagingFlash = 0 then
    let n := 1 - d.fw.active
    if copyBad then
      let f := { d.fw with flash := flashErase (slotFlash n) stagingSize d.fw.flash, stState := 3, stVersion := 0 }
      emit 0x8001 0 (fwDetail (imageVerify f (slotFlash n)) (imgVersion d.fw stagingFlash)) { d with fw := f }
    else
    let d := fwMod (fun f => { f with
      flash := flashCopy n f.flash, previous := f.active, active := n, trial := 1, trialRan := false, stState := 5 }) d
    emit 0x8002 n (fwDetail 0 (imgVersion d.fw (slotFlash n))) d
  else d

/-- A fallback boot: RST_CAUSE, counter and event. -/
def bootFallback (slot why : Nat) (d : Dev) : Dev :=
  let d := setCause 12 (fwMod (fun f => { f with fallbackCnt := BitVec.ofNat 64 (satAdd (2 ^ 64 - 1) f.fallbackCnt.toNat 1) }) d)
  emit 0x8005 slot (BitVec.ofNat 64 why) d

/-- A trial that ran without confirmation has failed; a failed trial falls back. -/
def bootTrial (d : Dev) : Dev :=
  let d := if d.fw.trial = 1 ∧ d.fw.trialRan = true then fwMod (fun f => { f with trial := 2 }) d else d
  if d.fw.trial = 2 then
    bootFallback d.fw.previous 1 (fwMod (fun f => { f with active := f.previous, trial := 0 }) d)
  else d

/-- The slot that runs; none where no image verifies. -/
def bootSlot (fw : Fw) : Option Nat :=
  if slotOk fw fw.active then some fw.active else if slotOk fw (1 - fw.active) then some (1 - fw.active) else none

/-- The persisted objects exchanged with the copy kept beside them. -/
def configSwap (ver : Nat) (old : Option Nat) (d : Dev) : Dev :=
  let o := d.kmd.objs.filter (fun e => persisted e.1)
  let b := d.kmd.blobs.filter (fun e => persisted e.1)
  let objs := d.fw.cfgObjs.foldl (fun m e => spPut (BitVec.ofNat 64 (objDefault e.1)) e.1 e.2 m) (spErase persisted d.kmd.objs)
  let blobs := d.fw.cfgBlobs.foldl (fun m e => spPut [] e.1 e.2 m) (spErase persisted d.kmd.blobs)
  { d with
    kmd := { d.kmd with objs := objs, blobs := blobs }
    fw := { d.fw with cfgVer := ver, cfgOld := old, cfgObjs := o, cfgBlobs := b } }

/-- A copy of the records is kept, and the records take the image's version (R529). -/
def configKeep (ver : Nat) (d : Dev) : Dev :=
  { d with fw := { d.fw with
      cfgOld := some d.fw.cfgVer, cfgVer := ver, migration := 1
      cfgObjs := d.kmd.objs.filter (fun e => persisted e.1), cfgBlobs := d.kmd.blobs.filter (fun e => persisted e.1) } }

/-- The configuration records at the start of an image (R529): migrated with the old copy kept; taken from the old copy
on fallback; or left aside where they are newer than the image, with the defaults in force. -/
def bootConfig (img : Nat) (d : Dev) : Dev :=
  let v := d.fw.cfgVer
  if img = v then fwMod (fun f => { f with migration := if f.cfgOld.isSome then f.migration else 0 }) d
  else
    match d.fw.cfgOld with
    | some o =>
      if (img < v ∧ o ≤ img) ∨ (v < o ∧ o ≤ img) then fwMod (fun f => { f with migration := 0, cfgOld := none }) (configSwap o none d)
      else if v < img then configKeep img d
      else d
    | none =>
      if v < img then configKeep img d
      else
        let d := configSwap img (some v) (fwMod (fun f => { f with cfgObjs := [], cfgBlobs := [] }) d)
        emit 0x8007 0 (BitVec.ofNat 64 v) (fwMod (fun f => { f with migration := 2 }) d)

/-- The boot ROM at BOOT: the device with the chosen image running, or none with no_firmware (R526, R427). -/
def bootRom (copyBad : Bool) (d : Dev) : Dev × Bool :=
  let d := bootTrial (bootInstall copyBad d)
  let d := fwMod (fun f => { f with copying := false }) d
  match bootSlot d.fw with
  | none => (d, false)
  | some n =>
    let d := if n = d.fw.active then d else bootFallback n 2 d
    let d := fwMod (fun f => { f with running := n, trialRan := f.trial == 1 && n == f.active }) d
    (bootConfig (imgConfig d.fw (slotFlash n)) d, true)

/-- The service port and the boot ROM at the beginning of a start (R524, R525). -/
def bootBegin (d : Dev) : Dev :=
  fwMod (fun f => { f with
    job := none, bufs := [], stagedBytes := 0, error := false, lastResult := 0, lastCmd := 0, irq := false
    stState := if f.stState = 1 ∨ f.stState = 4 then 3 else f.stState
    copying := f.stState == 2, confirmUntil := none }) d

/-! ### Trial and security fuse (R521, R527, R528) -/

/-- The security fuse grows to the running image's version (R528). -/
def fuseStep (d : Dev) : Dev :=
  let v := min 64 (imgSecurity d.fw (slotFlash d.fw.active))
  if d.fw.secFuse < v then
    emit 0x8006 0 (BitVec.ofNat 64 (d.fw.secFuse + 256 * v)) (fwMod (fun f => { f with secFuse := v }) d)
  else d

/-- Firmware at READY: the confirmation window opens, or the fuse catches up (R527, R528). -/
def fwReady (d : Dev) : Dev :=
  if d.fw.trial = 1 ∧ d.fw.running = d.fw.active then fwMod (fun f => { f with confirmUntil := some (d.tim.now + 900 * 10 ^ 9) }) d
  else if d.fw.trial = 0 then fuseStep d
  else d

/-- A confirmed trial (R528): the record, the old configuration copies, the fuse, and the staging region. -/
def fwConfirm (d : Dev) : Dev :=
  let n := d.fw.active
  let d := emit 0x8003 n (fwDetail 0 (imgVersion d.fw (slotFlash n))) (fwMod (fun f => { f with
    trial := 0, trialRan := false, confirmUntil := none, cfgOld := none, cfgObjs := [], cfgBlobs := [], migration := 0 }) d)
  fwMod (fun f => { f with
    flash := flashErase stagingFlash stagingSize f.flash, progd := [], stagedBytes := 0, stState := 0, stVersion := 0 })
    (fuseStep d)

/-- The confirmation window ends unconfirmed (R527). -/
def trialExpiry (d : Dev) : Dev :=
  match d.fw.confirmUntil with
  | none => d
  | some t =>
    if d.fw.trial = 1 then
      emit 0x8004 d.fw.active 0 (fwMod (fun f => { f with trial := 2, confirmUntil := none }) (advanceTo t d))
    else d

/-! ### The service port (R522 to R525) -/

/-- SVC_STATUS.busy. -/
def svcBusy (fw : Fw) : Bool := fw.job.isSome || decide (2 ≤ fw.bufs.length)

/-- SVC_STATUS (R525). -/
def svcStatus (fw : Fw) : W64 :=
  BitVec.ofNat 64 (fw.stagedBytes * 2 ^ 32 + b2n (svcBusy fw) * 2 ^ 31 + b2n fw.error * 2 ^ 30 + fw.lastResult * 2 ^ 16 +
    fw.stState * 2 ^ 12 + fw.lastCmd)

/-- A command refused: its result, with SVC_IRQ_N low (R524). -/
def svcRefuse (r : Nat) (d : Dev) : Dev := fwMod (fun f => { f with error := true, lastResult := r, irq := true }) d

/-- A command accepted. -/
def svcAccept (op : Nat) (f : Fw → Fw) (d : Dev) : Dev := fwMod (fun x => f { x with lastCmd := op, error := false }) d

/-- What every command but READ_STATUS meets first: the port is silent while the hub uncore is held, and busy refuses
(R522, R524). -/
def svcGate (f : Dev → Dev) (d : Dev) : Dev :=
  if !(hubUp d) || d.health.state == .off || extestOn d then d
  else if svcBusy d.fw || d.fw.copying then svcRefuse 0x10 d
  else f d

/-- A range lies in one of the readable regions. -/
def svcReadable (a n : Nat) : Bool :=
  decide (stagingFlash ≤ a ∧ a + n ≤ stagingFlash + stagingSize) || decide (logFlash ≤ a ∧ a + n ≤ flashEnd)

/-- Two ranges of bytes share one. -/
def rangesMeet (a b : Nat × Nat) : Bool := decide (a.1 < b.1 + b.2 ∧ b.1 < a.1 + a.2)

/-- HIF_ID (R5). -/
def hifId (d : Dev) : Nat := 0x4B040B00 + (if d.fuses.grade = 96 then 1 else 2) * 0x1000

def svcReadId (addr : Nat) (d : Dev) : Dev :=
  if addr ≠ 0 then svcRefuse 0x11 d
  else
    let id := leBytes 4 (hifId d) ++ leBytes 4 d.rst.incarnation.toNat
    fwMod (fun f => { f with readData := id }) d

def svcReadStatus (addr : Nat) (d : Dev) : Dev :=
  if !(hubUp d) || d.health.state == .off || extestOn d then d
  else if addr ≠ 0 then svcRefuse 0x11 d
  else fwMod (fun f => { f with readData := leBytes 8 (svcStatus f).toNat, error := false, irq := false }) d

def svcRead (addr len : Nat) (d : Dev) : Dev :=
  if !(svcReadable addr len) then svcRefuse 0x11 d else fwMod (fun f => { f with readData := flashRead f addr len }) d

def svcErase (addr : Nat) (data : List Byte) (d : Dev) : Dev :=
  if addr ≠ 0 ∨ data ≠ [] then svcRefuse 0x11 d
  else svcAccept 0x20 (fun f => { f with job := some .erase, stState := 4, stVersion := 0 }) d

def svcProgram (addr : Nat) (data : List Byte) (d : Dev) : Dev :=
  let n := data.length
  if addr % 256 ≠ 0 ∨ n = 0 ∨ 4096 < n ∨ stagingSize < addr + n then svcRefuse 0x11 d
  else if d.fw.progd.any (rangesMeet (addr, n)) then svcRefuse 0x12 d
  else if d.fw.stState = 2 ∨ d.fw.stState = 5 then svcRefuse 0x13 d
  else svcAccept 0x02 (fun f => { f with
    bufs := snoc f.bufs (addr, data), progd := snoc f.progd (addr, n), stState := 1 }) d

def svcCommit (addr : Nat) (data : List Byte) (d : Dev) : Dev :=
  if addr ≠ 0 ∨ data ≠ [] then svcRefuse 0x11 d
  else if d.fw.stState = 0 ∨ d.fw.stState = 2 ∨ d.fw.stState = 5 then svcRefuse 0x13 d
  else svcAccept 0x31 (fun f => { f with job := some .commit }) d

def svcKeyWrite (addr : Nat) (data : List Byte) (d : Dev) : Dev :=
  if 1 < addr ∨ data.length ≠ 32 then svcRefuse 0x11 d
  else if !((spGet [] d.kmd.keys addr).isEmpty) then svcRefuse 0x14 d
  else svcAccept 0x41 (fun f => { f with job := some (.keyWrite addr data) }) d

/-- KEY_ERASE is accepted in START, MAINT, RECOVERY and OUT_OF_SERVICE. -/
def keyState (m : MState) : Bool :=
  match m with
  | .start => true
  | .maint => true
  | .recovery => true
  | .outOfService => true
  | _ => false

def svcKeyErase (addr : Nat) (data : List Byte) (d : Dev) : Dev :=
  if 1 < addr ∨ data ≠ [] then svcRefuse 0x11 d
  else if !(keyState d.health.state) then svcRefuse 0x15 d
  else svcAccept 0x42 (fun f => { f with job := some (.keyErase addr) }) d

/-- A job of the service port ends well. -/
def svcJobDone (j : SvcJob) (d : Dev) : Dev :=
  let key (n : Nat) (k : List Byte) (b : Nat) (d : Dev) : Dev :=
    emit 0x8008 n (BitVec.ofNat 64 b) (fwMod (fun f => { f with lastResult := 0, irq := true })
      { d with kmd := { d.kmd with keys := spPut [] n k d.kmd.keys } })
  match j with
  | .erase => fwMod (fun f => { f with
      flash := flashErase stagingFlash stagingSize f.flash, progd := [], stagedBytes := 0, stState := 0, stVersion := 0
      lastResult := 0 }) d
  | .commit =>
    let r := imageVerify d.fw stagingFlash
    let v := imgVersion d.fw stagingFlash
    emit 0x8001 0 (fwDetail r v) (fwMod (fun f => { f with
      stResult := r, lastResult := r, error := r != 0, stState := if r = 0 then 2 else 3
      stVersion := if r = 0 then BitVec.ofNat 32 v else 0, irq := true }) d)
  | .keyWrite n k => key n k 1 d
  | .keyErase n => key n [] 0 d

/-- The oldest buffer is programmed, or the running job ends; a program or erase may fail (R523, R524). -/
def svcDone (failed : Bool) (d : Dev) : Dev :=
  match d.fw.bufs, d.fw.job with
  | (o, b) :: t, _ =>
    if failed then svcRefuse 0x16 (fwMod (fun f => { f with bufs := t }) d)
    else fwMod (fun f => { f with
      bufs := t, flash := flashPut (stagingFlash + o) b f.flash, stagedBytes := f.stagedBytes + b.length, lastResult := 0 }) d
  | [], some j =>
    let d := fwMod (fun f => { f with job := none }) d
    if failed then svcRefuse 0x16 d else svcJobDone j d
  | [], none => d

/-! ### The commands -/

/-- READ_ID (R523). -/
def execReadId (addr : W32) (s : State) : Host.Outcome State Fault Refusal :=
  .next (onDev (svcGate (svcReadId addr.toNat)) s)

/-- READ_STATUS (R525). -/
def execReadStatus (addr : W32) (s : State) : Host.Outcome State Fault Refusal :=
  .next (onDev (svcReadStatus addr.toNat) s)

/-- READ (R523). -/
def execReadFlash (addr : W32) (len : Nat) (s : State) : Host.Outcome State Fault Refusal :=
  .next (onDev (svcGate (svcRead addr.toNat len)) s)

/-- STAGE_ERASE (R523). -/
def execStageErase (addr : W32) (data : List Byte) (s : State) : Host.Outcome State Fault Refusal :=
  .next (onDev (svcGate (svcErase addr.toNat data)) s)

/-- STAGE_PROGRAM (R523). -/
def execStageProgram (addr : W32) (data : List Byte) (s : State) : Host.Outcome State Fault Refusal :=
  .next (onDev (svcGate (svcProgram addr.toNat data)) s)

/-- STAGE_COMMIT (R520). -/
def execStageCommit (addr : W32) (data : List Byte) (s : State) : Host.Outcome State Fault Refusal :=
  .next (onDev (svcGate (svcCommit addr.toNat data)) s)

/-- KEY_WRITE (R523). -/
def execKeyWrite (addr : W32) (data : List Byte) (s : State) : Host.Outcome State Fault Refusal :=
  .next (onDev (svcGate (svcKeyWrite addr.toNat data)) s)

/-- KEY_ERASE (R524). -/
def execKeyErase (addr : W32) (data : List Byte) (s : State) : Host.Outcome State Fault Refusal :=
  .next (onDev (svcGate (svcKeyErase addr.toNat data)) s)

/-- SERVICE_COMMAND_DONE (R524). -/
def execServiceCommandDone (failed : Bool) (s : State) : Host.Outcome State Fault Refusal :=
  .next (onDev (svcDone failed) s)

/-- TRIAL_EXPIRY (R527). -/
def execTrialExpiry (s : State) : Host.Outcome State Fault Refusal := .next (onDev trialExpiry s)

end Sys2Proof.Machine
end

