-- ==== Sys2Proof/Machine/Scrub.lean ====
section
/-! DEFINITION. Context scrub and the zero fill after it (R208, R446 to R448, R456 to R460, R470, R541, R553). -/

namespace Sys2Proof.Machine

/-! ### Acceptance: step 1 (R456) -/

/-- The context ID of a slot. -/
def slotCtxId (d : Dev) (slot : Nat) : Nat := ctxWord d slot / 16

/-- Kernels a slot's rings run. -/
def slotKernels (d : Dev) (slot : Nat) : Nat :=
  ((List.range 8).filter (fun r =>
    match (ringGet d slot r).run with
    | some k => lKind k.desc == 0
    | none => false)).length

/-- A freeze of the context ends with the scrub (R485). -/
def lsThaw (ctx : Nat) (d : Dev) : Dev :=
  if lsFrozen d ctx then
    emit 0xA001 0 (BitVec.ofNat 64 (4 + 256 * d.ls.endCause)) { d with ls := { d.ls with state := 4, mine := [], recv := [] } }
  else d

/-- A scrub of a slot is accepted: it counts, its kernels abort (R456 step 1). -/
def scrubBegin (slot : Nat) (fromHost : Bool) (d : Dev) : Dev :=
  let cw := ctxWord d slot
  let zero := objGet d 0x620005 == 1
  let d := emit 0x6004 (cw / 16) 3 (cntInc (rstBase + 0x220) d)
  let d := { d with
    health := { d.health with scrub := some ⟨slot, cw, zero, d.tim.count, 0, 0, slotKernels d slot, []⟩ }
    hif := { d.hif with scrubBusy := fromHost || d.hif.scrubBusy } }
  lsThaw cw (forceRuns (fun n => n == slot) 0x04 d)

/-- A reset or a scrub keeps another one from starting (R414, R460). -/
def recoveryBusy (d : Dev) : Bool := d.health.scrub.isSome || d.rst.coreBusy || d.rst.withdraw.isSome

/-- A write of HIF_CTX_SCRUB (R541). -/
def hifScrub (slot : Nat) (d : Dev) : Dev :=
  if isAdmitted d && ctxValid d slot && !(recoveryBusy d) then scrubBegin slot true d else refuseState d

/-! ### The end of the context's work: steps 2 to 5 (R447, R448, R456, R457) -/

/-- Items counted as ended. -/
def scrubCount (n : Nat) (d : Dev) : Dev :=
  { d with health := { d.health with scrub := d.health.scrub.map (fun c => { c with items := c.items + n }) } }

/-- An operation that is an item of work by itself (R446). -/
def opItem (op : AsyncOp) : Bool :=
  match op with
  | .xcopy _ _ _ _ => true
  | .xfill _ _ _ _ => true
  | .xunpack _ _ _ _ _ _ => true
  | .xstream _ _ _ _ _ => true
  | .xtopk _ _ _ _ _ _ _ _ => true
  | .xtrig _ => true
  | .soc _ _ _ => true
  | .ld _ _ pa _ _ => tierWindow (tierOf pa)
  | .st pa _ _ => tierWindow (tierOf pa)
  | .vld _ pa _ _ _ _ => tierWindow (tierOf pa)
  | .vst pa _ _ _ => tierWindow (tierOf pa)
  | _ => false

/-- Trackers of the context that are items. -/
def trackerItems (d : Dev) (cw : Nat) : Nat :=
  ((List.range 104).map (fun l =>
    let x := lndGet d l
    if x.kern.ctx = cw then (x.trk.filter (fun t => opItem t.op)).length else 0)).sum

/-- Launches a slot's rings have started or fetched. -/
def launchItems (d : Dev) (slot : Nat) : Nat :=
  ((List.range 8).map (fun r =>
    let q := ringGet d slot r
    q.fetched.length + b2n q.run.isSome)).sum

/-- Every item of the context at its end. -/
def contextItems (d : Dev) (slot cw : Nat) : Nat :=
  (d.nic.dq.filter (fun e => e.slot == slot)).length + (d.nic.contribWait.filter (fun w => w.1.slot == slot)).length +
    (d.nic.items.filter (fun i => i.slot == slot)).length + (trigArmed d slot).length +
    (d.nic.insts.filter (fun i => i.slot == slot)).length + trackerItems d cw + launchItems d slot

/-- Granules that the answer of an outstanding cell was to fill become poison (R92, R235). -/
def poisonPlaces : List OutCell → State → State
  | [], s => s
  | o :: t, s =>
    match o.place with
    | .bytes pa => poisonPlaces t (poisonRange pa (if o.cell.op = 0xA then 1 else o.cell.len.toNat + 1) none s)
    | _ => poisonPlaces t s

/-- A cell of the context. -/
def ofCtx (cw : Nat) (o : OutCell) : Bool := o.cell.ctx.toNat * 16 + o.cell.gen.toNat == cw

/-- The context's cells leave the resend store and the queues before it (R243, R456 step 3). -/
def dropCells (cw : Nat) (s : State) : State :=
  let gone := (s.dev.nic.resend ++ s.dev.nic.waitq ++ s.dev.nic.expq).filter (ofCtx cw)
  let keep (l : List OutCell) : List OutCell := l.filter (fun o => !(ofCtx cw o))
  let d := { s.dev with nic := { s.dev.nic with
    resend := keep s.dev.nic.resend, waitq := keep s.dev.nic.waitq, expq := keep s.dev.nic.expq } }
  poisonPlaces gone { s with dev := drainWait d.nic.waitq.length d }

/-- Cells of control messages sent at step 2 are forgotten like the others. -/
def forgetCells (cw : Nat) (d : Dev) : Dev :=
  let d := { d with nic := { d.nic with resend := d.nic.resend.filter (fun o => !(ofCtx cw o)) } }
  drainWait d.nic.waitq.length d

/-- Queued descriptors end with ctx_aborted (R457). -/
def abortQueued : List DqEnt → State → State
  | [], s => s
  | e :: t, s =>
    let (x, s) := entRead e s
    let s := match x with
      | some x => descAborted e x s
      | none => finishDesc ⟨e.slot, 0, 4, 0, 0xFF, 0, 0, 0, false, e.src.xctr⟩ { s with dev := scrubCount 1 s.dev }
    abortQueued t s

/-- Armed trigger slots are freed unfired, each with a record of kind 8 (R332, R447). -/
def abortTriggers : List TrigEnt → State → State
  | [], s => s
  | t :: r, s => abortTriggers r
      (finishDesc ⟨t.slot, descTag t.desc, 4, 0, 0xFF, 8, 0, 0, descFlag t.desc 2, descLctr t.desc⟩ s)

/-- Started collective operations abort and name this module's rank (R355, R457). -/
def abortInsts : List Inst → State → State
  | [], s => s
  | x :: t, s => abortInsts t (instAbort x 4 x.rank 0xFF s)

/-- Descriptors in progress end with ctx_aborted; cells already applied stand (R457). -/
def abortItems : List Item → State → State
  | [], s => s
  | x :: t, s => abortItems t (itemFinish { x with cells := 1, failed := 1, firstFail := 4, firstCause := 0xFF } s)

/-- The queues of the NIC lose the context's entries (R456 step 2). -/
def dropQueues (slot cw : Nat) (d : Dev) : Dev :=
  { d with nic := { d.nic with
      dq := d.nic.dq.filter (fun e => e.slot != slot)
      contribWait := d.nic.contribWait.filter (fun w => w.1.slot != slot)
      trig := d.nic.trig.filter (fun t => t.slot != slot)
      vest := d.nic.vest.filter (fun c => c.ctx.toNat * 16 + c.gen.toNat != cw)
      heldAtomics := d.nic.heldAtomics.filter (fun h => h.slot != slot) } }

/-- The counts of records that found no room are let go with their increments (R456 step 5). -/
def dropHeld (slot : Nat) : List HeldRec → State → State
  | [], s => s
  | h :: t, s =>
    let d := { s.dev with
      nic := { s.dev.nic with held := spPut [] slot t s.dev.nic.held }
      health := { s.dev.health with scrub := s.dev.health.scrub.map (fun c => { c with unwritten := c.unwritten + 1 }) } }
    let s := { s with dev := d }
    dropHeld slot t (match h.lctr with
      | some (c, e) => ctrUpdates [⟨c, 1, e⟩] s
      | none => s)

/-- Transfers to the module of a slot leave their unwritten granules poison (R448). -/
def slotDmaPoison (slot : Nat) (s : State) : State :=
  (List.range 8).foldl (fun s r =>
    match (ringGet s.dev slot r).run with
    | some k => dmaPoison slot k s
    | none => s) s

/-- The landings of the slot's kernels stop where they are. -/
def idleLandings (slot : Nat) (d : Dev) : Dev :=
  (List.range 8).foldl (fun d r =>
    match (ringGet d slot r).run with
    | some k => k.landings.foldl (fun d l => lndMod l (fun x => { x with phase := .idle }) d) d
    | none => d) d

/-- Steps 2 to 5: writes already issued apply, poison is made, then records, counters and entries (R448, R456). -/
def endContextWork (slot cw : Nat) (s : State) : State :=
  let queued : List DqEnt :=
    s.dev.nic.dq.filter (fun e => e.slot == slot) ++
      (s.dev.nic.contribWait.map (·.1)).filter (fun e => e.slot == slot)
  let s : State := { s with dev := scrubCount (contextItems s.dev slot cw - queued.length) s.dev }
  let held : List HeldAtomic :=
    (s.dev.nic.heldAtomics.filter (fun h => h.slot == slot)).foldl (fun acc x => insHeld x acc) []
  let trigs := trigArmed s.dev slot
  let s := applyHeld held { s with dev := dropQueues slot cw s.dev }
  let s := dropCells cw s
  let s := abortInsts (s.dev.nic.insts.filter (fun i => i.slot == slot)) s
  let s := { s with dev := forgetCells cw s.dev }
  let s := queued.foldl (fun s e => poisonSrc slot e.src.trk s) s
  let s := slotDmaPoison slot (abortWork (fun c => c == cw) s)
  let s := abortItems (s.dev.nic.items.filter (fun i => i.slot == slot)) s
  let s := abortTriggers trigs (abortQueued queued s)
  let s := cqDrain (spGet [] s.dev.nic.held slot).length slot s
  let s := dropHeld slot (spGet [] s.dev.nic.held slot) s
  { s with dev := endRings (fun n => n == slot) 0x04 (idleLandings slot s.dev) }

/-! ### Step 6 and the report (R208, R456, R458, R459, R470) -/

/-- Every store the slot has written becomes cold (R208). -/
def coldWritten (slot : Nat) (s : State) : State :=
  (List.range 116).foldl (fun s n =>
    if (spGet 0 s.dev.memc.writers n).getLsbD slot then
      let s := coldStore n s
      { s with dev := cntInc (memBase + 0x4B8) s.dev }
    else s) s

/-- Leaf pages with w = 1 under a table, each with its length (R182, R459): `n` levels are left. -/
def writableLeaves (s : State) : Nat → Nat → List (Nat × Nat)
  | 0, _ => []
  | n + 1, table =>
    (List.range 512).flatMap (fun i =>
      let e : W64 := BitVec.ofNat 64 (leNat (peekBytes s (table + 8 * i) 8))
      match xltKind s.dev n e with
      | .invalid => []
      | .leaf l => if l.w && tierModule (tierOf l.pa) then [(l.pa, l.size)] else []
      | .table t => writableLeaves s n t)

/-- The pages of a slot's page table that a zero fill writes, each once. -/
def fillPages (s : State) (slot : Nat) : List (Nat × Nat) :=
  let root := xltRoot s.dev slot
  if root.getLsbD 0 then (writableLeaves s 4 (fieldN root 47 12 * 4096)).eraseDups else []

/-- Bytes of the pages that are not retired (R459). -/
def fillBytes (d : Dev) (pages : List (Nat × Nat)) : Nat :=
  (pages.map (fun p => ((List.range (p.2 / 4096)).filter (fun i => !(pageRetired d (p.1 + 4096 * i)))).length * 4096)).sum

/-- The scrub is complete (R456 step 6): stores cold, the slot free, its rings disabled, the report filled. -/
def scrubFinish (c : Scrub) (s : State) : State :=
  let pages := if c.zero then fillPages s c.slot else []
  let s := coldWritten c.slot s
  let d := s.dev
  let live := (d.health.scrub.getD c)
  let cfg := setField (ctxCfg d c.slot) 255 1 0
  let result := if c.zero then 2 else 1
  let d := disableRings c.slot { d with nic := { d.nic with ctxCfg := spPut 0 c.slot cfg d.nic.ctxCfg } }
  let d := { d with
    health := { d.health with
      scrub := none
      fills := if c.zero then snoc d.health.fills { live with pages := pages } else d.health.fills
      report := ⟨c.ctx, result, timeQuality d.tim, live.items, live.unwritten, c.kernels, c.acceptedAt, d.tim.count, 0⟩
      scrubbed := spPut none (c.ctx / 16) (some (c.ctx % 16, d.tim.now)) d.health.scrubbed }
    hif := { d.hif with scrubBusy := false } }
  { s with dev := emit 0x6005 (c.ctx / 16) (BitVec.ofNat 64 result) d }

/-- SCRUB_COMPLETE: steps 2 to 6, and the hang detector's core reset that waited (R456, R460). -/
def scrubComplete (s : State) : State :=
  match s.dev.health.scrub with
  | none => s
  | some c => afterHang (scrubFinish c (endContextWork c.slot c.ctx s))

/-- A page filled with zeros; retired pages drop the write (R201, R459). -/
def fillPage (pa len : Nat) (s : State) : State :=
  (List.range (len / 4096)).foldl (fun s i =>
    if pageRetired s.dev (pa + 4096 * i) then s
    else writeBytes (pa + 4096 * i) (List.replicate 4096 (some (0 : Byte))) false none s) s

/-- ZERO_FILL_DONE: every page due holds zeros, and the report says so (R459, R470; log entry 21). -/
def zeroFillDone (s : State) : State :=
  match s.dev.health.fills with
  | [] => s
  | c :: t =>
    let n := fillBytes s.dev c.pages
    let s := c.pages.foldl (fun s p => fillPage p.1 p.2 s) s
    let d := s.dev
    let rep := if d.health.report.ctx = c.ctx ∧ d.health.report.result = 2 then
        { d.health.report with result := 3, zeroBytes := n } else d.health.report
    let d := { d with health := { d.health with
      fills := t, report := rep
      scrubbed := spPut none (c.ctx / 16) (some (c.ctx % 16, d.tim.now)) d.health.scrubbed } }
    { s with dev := d }

/-! ### The commands -/

/-- HIF_CTX_SCRUB (R541). -/
def execHifCtxScrub (v : W32) (s : State) : Host.Outcome State Fault Refusal := .next (fromHost (onDev (hifScrub (fieldN v 4 0))) s)

/-- SCRUB_COMPLETE (R456). -/
def execScrubComplete (s : State) : Host.Outcome State Fault Refusal := .next (scrubComplete s)

/-- ZERO_FILL_DONE (R459). -/
def execZeroFillDone (s : State) : Host.Outcome State Fault Refusal := .next (zeroFillDone s)

end Sys2Proof.Machine
end

