-- ==== Sys2Proof/Machine/Start.lean ====
section
/-! DEFINITION. Power-on, the release of the domains, the phases of a start, failed starts, the reset pins, removal and
the clock reference (R366, R408 to R445, R461, R462, R533, R570 to R573). -/

namespace Sys2Proof.Machine

/-! ### Failed starts and RECOVERY (R427, R440, R441) -/

/-- Steps 1 to 3 of R440. -/
def recordFail (c : Nat) (d : Dev) : Dev :=
  let d := emit 0x1005 0 (BitVec.ofNat 64 (c + 256 * d.rst.phase)) d
  setCause 11 (cntInc (rstBase + 0x208) { d with rst := { d.rst with
    failCause := c, failPhase := d.rst.phase, failedStarts := min 15 (d.rst.failedStarts + 1), trial := false } })

/-- A start fails: a system reset follows without Withdraw (R440). -/
def failStart (c : Nat) (s : State) : State := systemResetNow { s with dev := recordFail c s.dev }

/-- RECOVERY (R441, R508). -/
def enterRecovery (s : State) : State :=
  let s := coldAll s
  { s with dev := setState .recovery (recoverySet (stopBlocks s.dev)) }

/-! ### The phases (R424 to R436) -/

/-- BOOT: OUT_OF_SERVICE with the mark, RECOVERY without firmware or after three failed starts, else FUSES (R441, R453,
R508, R526). -/
def phaseBoot (copyBad : Bool) (s : State) : State :=
  let (d, ok) := bootRom copyBad s.dev
  let free := d.rst.trial || decide (d.rst.failedStarts < 3)
  let d := { d with rst := { d.rst with trial := false } }
  if d.health.oosMark then enterService { s with dev := d }
  else if !ok then enterRecovery { s with dev := recordFail 5 d }
  else if !free then enterRecovery { s with dev := d }
  else { s with dev := setPhase 1 0 d }

/-- Enabled landings of a gallery. -/
def enabledIn (f : Fuses) (g : Nat) : Nat :=
  let p := gallerySlots g
  ((List.range p.2).filter (fun i => f.landingEnable.getLsbD (p.1 + i))).length

/-- The fuse record is consistent (R429). -/
def fusesOk (f : Fuses) : Bool :=
  if f.grade = 96 then
    (List.range 12).all (fun g => enabledIn f g == 8) && f.galleryFull == 0x0FFF
  else if f.grade = 88 then
    [0, 6].all (fun h =>
      let l := (List.range 6).map (fun i => enabledIn f (h + i))
      decide ((l.filter (· == 8)).length = 2 ∧ (l.filter (· == 7)).length = 4)) &&
    (List.range 12).all (fun g => f.galleryFull.getLsbD g == (enabledIn f g == 8)) && fieldN f.galleryFull 15 12 == 0
  else false

/-- The defect list names a landing retired (R431). -/
def landListed (d : Dev) (l : Nat) : Bool := d.health.defects.any (fun e => e.kind == 1 && e.unit == l)

/-- landing_state as fuses and defect list give it (R436). -/
def landFused (d : Dev) : Dev :=
  let st (l : Nat) : Nat := if !(d.fuses.landingEnable.getLsbD l) then 1 else if landListed d l then 2 else 0
  { d with health := { d.health with
      landState := (List.range 104).foldl (fun m l => spPut 1 l (st l) m) [] } }

/-- FUSES: the defect list is read and applied (R201, R430 to R432). -/
def phaseFuses (lost : Bool) (d : Dev) : Dev :=
  let d := if lost then setDegraded 8 true { d with health := { d.health with defects := [], defectLost := true } } else d
  let pages := (d.health.defects.filter (fun e => e.kind == 6)).map (fun e => e.detail.toNat)
  let d := landFused { d with memc := { d.memc with retired := pages, retireFull := decide (4096 ≤ pages.length) } }
  setPhase 2 0 (setDegraded 3 d.memc.retireFull d)

/-- A landing is recorded retired, and its machine-check records go (R431). -/
def recordRetired (origin l : Nat) (d : Dev) : Dev :=
  addDefect 0x01 origin l 0 { d with health := { d.health with
    defects := d.health.defects.filter (fun e => !(e.kind == 7 && e.unit % 256 == l)) } }

/-- A landing of this start is bad: recorded, and it does not run (R435, R436). -/
def landBad (origin l : Nat) (d : Dev) : Dev :=
  if landStateOf d l ≠ 0 then d
  else
    let d := recordRetired origin l d
    { d with health := { d.health with landState := spPut 1 l 3 d.health.landState } }

/-- A gallery store beyond repair: its landings are recorded and its range becomes a hole (R435). -/
def galleryBad (g : Nat) (d : Dev) : Dev :=
  let p := gallerySlots g
  let d := (List.range p.2).foldl (fun d i => landBad 1 (p.1 + i) d) d
  { d with memc := { d.memc with galHole := nsInsert g d.memc.galHole } }

/-- SELFTEST (R424, R435). -/
def phaseSelftest (i : PhaseIn) (d : Dev) : Dev :=
  let d := i.badLandings.foldl (fun d l => if l < 104 then landBad 1 l d else d) d
  let d := i.badGalleries.foldl (fun d g => if g < 12 then galleryBad g d else d) d
  setPhase 3 0 d

/-- A stack channel works (R175, R429, R431). -/
def chanWorks (d : Dev) (k : Nat) : Bool :=
  !(d.fuses.stackChanBad.getLsbD k) && !((d.health.defects ++ d.health.defectsNow).any (fun e => e.kind == 3 && e.unit == k))

/-- Stacks in service and on 15 channels (R175), with degraded cause stack_reduced (R451). -/
def stackSet (d : Dev) : Dev :=
  let out (s : Nat) : List Nat := (List.range 16).filter (fun c => !(chanWorks d (16 * s + c)))
  let bad (s : Nat) : Nat := (out s).length
  let mask (p : Nat → Bool) : BitVec 8 := BitVec.ofNat 8 ((List.range 8).map (fun s => if p s then 2 ^ s else 0)).sum
  let up := mask (fun s => decide (bad s ≤ 1))
  let red := mask (fun s => decide (bad s = 1))
  setDegraded 1 (up != 0xFF || red != 0) { d with memc := { d.memc with
    stackUp := up, stackReduced := red
    retChan := (List.range 8).foldl (fun m s => if bad s = 1 then spPut 16 s ((out s).headD 16) m else m) [] } }

/-- Stack channels retired (R434). -/
def retireChannels (origin : Nat) (l : List Nat) (d : Dev) : Dev :=
  stackSet (l.foldl (fun d c => if c < 128 ∧ chanWorks d c = true then addDefect 0x03 origin c 0 d else d) d)

/-- Rows spared at earlier starts are spared again (R431). -/
def reapplySpares (d : Dev) : Dev :=
  (d.health.defects.filter (fun e => e.kind == 4)).foldl (fun d e => takeSpare (128 + e.unit) d)
    { d with memc := { d.memc with spareUsed := [] } }

/-- TRAIN (R424, R434). -/
def phaseTrain (i : PhaseIn) (s : State) : State :=
  let d := reapplySpares (retireChannels 2 i.badChannels s.dev)
  if d.memc.stackUp = 0 then failStart 8 { s with dev := d } else { s with dev := setPhase 4 0 d }

/-- A mezzanine row found failing takes a spare, or its pages are retired where none is left; a stack row is repaired
and leaves no trace (R200, R215, R434). -/
def testRow (rk : Nat) (d : Dev) : Dev :=
  let bank := rk / 2 ^ 48
  if bank < 128 ∨ 192 ≤ bank then d
  else if sparesTaken d bank < 8 then
    addDefect 0x04 3 (bank - 128) (BitVec.ofNat 64 (rk % 2 ^ 32)) (cntInc (memBase + 0x430) (takeSpare bank d))
  else retireRow 3 bank (rk % 2 ^ 48) d

/-- The staged regions of 0x5100 follow the set of the start (R177). -/
def stageRegions (l : List W64) (d : Dev) : Dev :=
  (l.zipIdx).foldl (fun d p => objPut (0x510001 + p.2) p.1.toNat d) d

/-- MEMTEST: repairs, the zero fill, and the interleave regions of the start (R177, R200, R204, R433, R434). -/
def phaseMemtest (i : PhaseIn) (s : State) : State :=
  let d := retireChannels 3 i.badChannels s.dev
  let d := { d with
    memc := { d.memc with repairRows := [] }
    health := { d.health with defects := d.health.defects.filter (fun e => e.kind != 5) } }
  let d := i.badPages.foldl (fun d pa => retirePageBy 3 pa d) (i.badRows.foldl (fun d r => testRow r d) d)
  if d.memc.stackUp = 0 then failStart 8 { s with dev := d }
  else
    let d := stageRegions (ilvDefault d) { d with memc := { d.memc with ilv := ilvDefault d } }
    { s with mem := s.mem.clear 0 0x011000000000, dev := setPhase 5 0 d }

/-- Landings whose machine checks reach the retirement rule are recorded, and their records go (R431, R435, R450). -/
def retireChecked (d : Dev) : Dev :=
  (List.range 104).foldl (fun d l =>
    let recs := d.health.defects.filter (fun e => e.kind == 7 && e.unit % 256 == l)
    let due := recs.any (fun e => decide (2 ≤ (recs.filter (mcheckNear e.detail (e.unit / 256))).length))
    if landStateOf d l = 0 ∧ due = true then
      let d := recordRetired 4 l d
      { d with health := { d.health with landState := spPut 1 l 2 d.health.landState } }
    else d) d

/-- Machine-check records older than 24 h go at a start; the newest well-timed stamp of the list stands for the present
moment, which a start does not know (R431; log entry 96). -/
def pruneChecked (d : Dev) : Dev :=
  let timed (e : Defect) : Bool := e.kind == 7 && decide (e.unit / 256 < 3)
  let newest := ((d.health.defects.filter timed).map (fun e => e.detail.toNat)).foldl max 0
  { d with health := { d.health with
      defects := d.health.defects.filter (fun e => !(timed e && decide (e.detail.toNat + dayNs < newest))) } }

/-- Logical numbers of the running landings, in ascending slot order (R8, R436). -/
def numberLandings (d : Dev) : Dev :=
  let run := (List.range 104).filter (fun l => landStateOf d l == 0)
  { d with health := { d.health with
      lmap := (run.zipIdx).foldl (fun m p => spPut 0xFF p.1 p.2 m) [], landingsEnabled := run.length } }

/-- Degraded cause landing_pending (R451). -/
def landPending (d : Dev) : Dev :=
  setDegraded 2 (d.health.retirePending != 0 || (List.range 104).any (fun l => landStateOf d l == 3)) d

/-- BIST, the numbering, and the first run of the topology check (R435, R436, R438). -/
def phaseBist (i : PhaseIn) (s : State) : State :=
  let d := i.badLandings.foldl (fun d l => if l < 104 then landBad 4 l d else d) (pruneChecked (retireChecked s.dev))
  let d := landPending (numberLandings d)
  if d.health.landingsEnabled = 0 then failStart 9 { s with dev := d }
  else { s with dev := topoRun (setPhase 6 0 d) }

/-- The causes that a phase's own work can end a start with (R427). -/
def phaseFails (c : Nat) : Bool := [2, 3, 4, 6, 7, 8].contains c

/-- The entries of a phase are written at its end, in one write of the list (R430, R432). -/
def phaseWrite (old : Dev) (s : State) : State :=
  if s.dev.health.defects = old.health.defects then s
  else { s with dev := { s.dev with health := { s.dev.health with
      defectSeq := old.health.defectSeq + 1, defectInc := old.rst.incarnation } } }

/-- A phase of the start ends. -/
def startPhaseDone (i : PhaseIn) (s : State) : State :=
  let d := s.dev
  if !(hubUp d) || d.health.state != .start then s
  else
    match i.fail with
    | some c => if phaseFails c && decide (d.rst.phase ≤ 5) then failStart c s else s
    | none =>
      match d.rst.phase with
      | 0 => phaseBoot i.copyBad s
      | 1 => if fusesOk d.fuses then { s with dev := phaseFuses i.defectLost d } else failStart 3 s
      | 2 => phaseWrite d { s with dev := phaseSelftest i d }
      | 3 => phaseWrite d (phaseTrain i s)
      | 4 => phaseWrite d (phaseMemtest i s)
      | 5 => phaseWrite d (phaseBist i s)
      | _ => s

/-- The start timeout (R440). -/
def startTimeout (s : State) : State :=
  if s.dev.health.state = .start ∧ hubUp s.dev = true then
    failStart 1 { s with dev := advanceTo (s.dev.rst.startAt + objGet s.dev 0x601002 * 10 ^ 9) s.dev }
  else s

/-- The watchdog of the HMP (R411). -/
def hmpWatchdog (s : State) : State :=
  if !(moduleRuns s.dev) then s
  else if s.dev.health.state = .start then failStart 0x0A { s with dev := setCause 5 s.dev }
  else sysResetFrom 5 true s

/-! ### Power-on (R363, R365, R408, R410, R418, R419, R573) -/

/-- What flash, fuses and powered time keep across a loss of power (R408, R452, R514, R517). -/
def keptOff (d : Dev) : Dev :=
  let x := Dev.reset
  { x with
    tim := { x.tim with now := d.tim.now }
    fuses := d.fuses
    fw := { x.fw with
      flash := d.fw.flash, progd := d.fw.progd, active := d.fw.active, previous := d.fw.previous, trial := d.fw.trial
      trialRan := d.fw.trialRan, secFuse := d.fw.secFuse, revoked := d.fw.revoked, stState := d.fw.stState
      stVersion := d.fw.stVersion, fallbackCnt := d.fw.fallbackCnt, cfgVer := d.fw.cfgVer, cfgOld := d.fw.cfgOld
      cfgObjs := d.fw.cfgObjs, cfgBlobs := d.fw.cfgBlobs, migration := d.fw.migration }
    kmd := { x.kmd with
      keys := d.kmd.keys, sent := d.kmd.sent, objs := d.kmd.objs.filter (fun e => persisted e.1)
      blobs := d.kmd.blobs.filter (fun e => persisted e.1) }
    hif := { x.hif with out := d.hif.out }
    pins := { d.pins with latched := false }
    freeCtr := d.freeCtr
    rst := { x.rst with
      failedStarts := d.rst.failedStarts, incarnation := d.rst.incarnation, failCause := d.rst.failCause
      failPhase := d.rst.failPhase, lastStartMs := d.rst.lastStartMs
      cause := if d.health.removalMark then 0x201 else 1 }
    health := { x.health with
      defects := d.health.defects, defectSeq := d.health.defectSeq, defectInc := d.health.defectInc
      coreResets := d.health.coreResets, sysResets := d.health.sysResets, oosMark := d.health.oosMark
      trained := d.health.trained } }

/-- The input rises through 30.0 V: the AON domain starts and holds power-on reset. -/
def powerOnReset (s : State) : State :=
  { s with mem := .reset, dev := { keptOff s.dev with memc := { MemCtl.reset with repairRows := s.dev.memc.repairRows } } }

/-- The input falls below 30.0 V: the AON domain stops, and everything it held is lost, the test logic's state too (R366,
R571, R576). -/
def aonSupplyLoss (s : State) : State :=
  let d := stopNow s.dev
  { s with dev := dropUnread { d with
      rst := { d.rst with aon := false, held := true, step := 0, cause := 0 }
      pwr := { d.pwr with supply := Supply.reset, cool := Cool.reset }
      jtag := .reset } }

/-- The straps are sampled, as the module sees them (R266, R488, R573, R575). -/
def sampleStraps (d : Dev) : Dev :=
  let pin (i : Nat) (v : Bool) : Nat := b2n (pinLevel d i v)
  let b := ((List.range 2).map (fun i => 2 ^ i * pin (20 + i) (d.pins.boardSlot.getLsbD i))).sum
  let t := ((List.range 6).map (fun i => 2 ^ i * pin (22 + i) (d.pins.trayId.getLsbD i))).sum
  { d with
    fuses := { d.fuses with boardSlot := b, trayId := t }
    pins := { d.pins with latched := true }
    kmd := { d.kmd with plcaNode := b + 1, mac := BitVec.ofNat 48 (0x024B34000000 + 256 * t + b + 1) } }

/-- The start goes on to the boot ROM. -/
def afterRelease (d : Dev) : Dev := if d.health.state = .start ∧ d.rst.phase = 0 then bootBegin d else d

/-- Power-on reset is released; SYS_RST_N low holds the reset (R410, R419, R420). -/
def porRelease (locked : Bool) (s : State) : State :=
  let d := s.dev
  if !d.rst.aon || !d.rst.held || d.pwr.supply.mainRails != .on || latchedOff d || d.health.state != .off then s
  else
    let s := clearAll { s with dev := sampleStraps d }
    let d := { s.dev with rst := { s.dev.rst with cold := true, held := true, step := 1 } }
    { s with dev := if d.rst.sysPinLow then d else afterRelease (releaseDomains locked { d with rst := { d.rst with refLost := false } }) }

/-- REFCLK has locked, or the lock is tried again in 10 ms (R420). -/
def refclkRetry (locked : Bool) (d : Dev) : Dev :=
  if d.rst.hold = 4 ∧ d.rst.step = 2 ∧ locked = true then
    afterRelease (startBegin { d with rst := { d.rst with refLocked := true, refLost := false } })
  else d

/-- REFCLK absent, or present again, after lock (R572). -/
def refclkLost (lost : Bool) (d : Dev) : Dev :=
  if d.rst.refLocked then { d with rst := { d.rst with refLost := lost } } else d

/-! ### Reset pins (R410, R413, R533, R570) -/

/-- SYS_RST_N while the release waits for REFCLK: the reset in progress is held (R410, R415, R420). -/
def heldAgain (s : State) : State :=
  { s with dev := setCause 1 { s.dev with rst := { s.dev.rst with held := true, step := 1, hold := 0 } } }

/-- SYS_RST_N: 1 µs low resets, and the reset holds while it is low. -/
def sysPin (level : Bool) (ns : Nat) (s : State) : State :=
  let v := pinLevel s.dev 10 level
  let d := s.dev
  if !d.rst.aon then s
  else if v then
    let d := { d with rst := { d.rst with sysPinLow := false } }
    if d.rst.held && d.rst.step == 1 && d.pins.latched && d.pwr.supply.mainRails == .on && !(latchedOff d) &&
        !d.pwr.cool.flowStopped && !d.rst.removed then
      { s with dev := afterRelease (releaseDomains (!d.rst.refLost) d) }
    else { s with dev := d }
  else if ns < 1000 ∨ d.rst.sysPinLow = true then s
  else
    let s := { s with dev := { d with rst := { d.rst with sysPinLow := true } } }
    if d.rst.step = 2 then heldAgain s else sysResetFrom 1 true s

/-- PERST_N: its fall resets the module or the host interface, by perst_scope; low, it holds the endpoint (R413, R533). -/
def perstPin (level : Bool) (ns : Nat) (s : State) : State :=
  let v := pinLevel s.dev 11 level
  let d := s.dev
  if !d.rst.aon then s
  else if v then { s with dev := { d with rst := { d.rst with perstLow := false } } }
  else if ns < 1000 ∨ d.rst.perstLow = true then s
  else
    let d := { d with rst := { d.rst with perstLow := true } }
    let s := { s with dev := d }
    if d.rst.step < 2 then s
    else if objGet d 0x601001 = 1 then
      let s := { s with dev := setCause 2 d }
      if moduleRuns d then hifReset s else s
    else sysResetFrom 2 true s

/-- Function Level Reset (R533). -/
def functionReset (s : State) : State := if hifUp s.dev then hifReset s else s

/-! ### Presence (R461, R462, R570) -/

/-- PRSNT_N low for 10 ms. -/
def prsntSeated (d : Dev) : Dev :=
  if pinLevel d 9 false then d else railsEval { d with rst := { d.rst with prsntLow := true, seated := true } }

/-- PRSNT_N high for 1 µs once seated: the module leaves without a drain (R461). -/
def prsntRelease (d : Dev) : Dev :=
  if !d.rst.seated || !(pinLevel d 9 true) then d
  else
    let d := { d with rst := { d.rst with prsntLow := false, seated := false } }
    if d.pwr.supply.mainRails ≠ .on then d
    else
      let d := if moduleRuns d then sendDepart (forceRuns (fun _ => true) 0x06 { d with nic := { d.nic with stopped := true } }) else d
      let d := { d with health := { d.health with removalMark := true } }
      stopNow { d with rst := { d.rst with removed := true } }

/-- PRSNT_N low again for 1 s: a system reset that is not counted (R462). -/
def prsntReturn (s : State) : State :=
  let d := s.dev
  if !d.rst.removed || pinLevel d 9 false then s
  else
    let d := setCause 9 { d with rst := { d.rst with removed := false, seated := true, prsntLow := true } }
    if latchedOff d || d.pwr.cool.flowStopped || d.pwr.supply.mainRails != .on then { s with dev := d }
    else
      let s := systemResetNow { s with dev := d }
      { s with dev := afterRelease s.dev }

/-! ### Core reset's end (R421, R435, R436) -/

/-- The quick BIST of a core reset is done. -/
def coreResetDone (bad : List Nat) (d : Dev) : Dev :=
  if !d.rst.coreBusy then d
  else
    let d := bad.foldl (fun d l => if l < 104 then landBad 4 l d else d) d
    let n := ((List.range 104).filter (fun l => landStateOf d l == 0)).length
    landPending (emit 0x6006 0 (BitVec.ofNat 64 n) { d with rst := { d.rst with coreBusy := false } })

/-! ### The commands -/

/-- What a command that may end in a system reset leaves: a start that has begun runs its boot ROM (R426). -/
def withBoot (f : State → State) (s : State) : State :=
  let t := f s
  if t.dev.rst.incarnation = s.dev.rst.incarnation then t else { t with dev := afterRelease t.dev }

/-- POWER_ON_RESET (R410). -/
def execPowerOnReset (s : State) : Host.Outcome State Fault Refusal := .next (powerOnReset s)

/-- AON_SUPPLY_LOSS (R366). -/
def execAonSupplyLoss (s : State) : Host.Outcome State Fault Refusal := .next (aonSupplyLoss s)

/-- POR_RELEASE (R419), with whether the clocks lock to REFCLK. -/
def execPorRelease (locked : Bool) (s : State) : Host.Outcome State Fault Refusal := .next (porRelease locked s)

/-- REFCLK_LOCK_RETRY (R420). -/
def execRefclkLockRetry (locked : Bool) (s : State) : Host.Outcome State Fault Refusal :=
  .next (onDev (refclkRetry locked) s)

/-- REFCLK_LOSS (R572). -/
def execRefclkLoss (s : State) : Host.Outcome State Fault Refusal := .next (onDev (refclkLost true) s)

/-- REFCLK_RESTORED (R572). -/
def execRefclkRestored (s : State) : Host.Outcome State Fault Refusal := .next (onDev (refclkLost false) s)

/-- SYS_RST_N (R410). -/
def execSysRstN (level : Bool) (heldNs : Nat) (s : State) : Host.Outcome State Fault Refusal :=
  .next (withBoot (sysPin level heldNs) s)

/-- WITHDRAW_END (R454). -/
def execWithdrawEnd (s : State) : Host.Outcome State Fault Refusal := .next (withBoot withdrawEnd s)

/-- PERST_N (R533). -/
def execPerstN (level : Bool) (heldNs : Nat) (s : State) : Host.Outcome State Fault Refusal :=
  .next (withBoot (perstPin level heldNs) s)

/-- FUNCTION_LEVEL_RESET (R533). -/
def execFunctionLevelReset (s : State) : Host.Outcome State Fault Refusal := .next (functionReset s)

/-- FLOW_RESTORED (R394). -/
def execFlowRestored (s : State) : Host.Outcome State Fault Refusal := .next (withBoot flowRestored s)

/-- HMP_WATCHDOG (R411). -/
def execHmpWatchdog (s : State) : Host.Outcome State Fault Refusal := .next (withBoot hmpWatchdog s)

/-- START_PHASE_DONE (R424). -/
def execStartPhaseDone (i : PhaseIn) (s : State) : Host.Outcome State Fault Refusal := .next (withBoot (startPhaseDone i) s)

/-- START_TIMEOUT (R440). -/
def execStartTimeout (s : State) : Host.Outcome State Fault Refusal := .next (withBoot startTimeout s)

/-- CORE_RESET_DONE (R421). -/
def execCoreResetDone (bad : List Nat) (s : State) : Host.Outcome State Fault Refusal := .next (onDev (coreResetDone bad) s)

/-- PRSNT_SEATED (R570). -/
def execPrsntSeated (s : State) : Host.Outcome State Fault Refusal := .next (onDev prsntSeated s)

/-- PRSNT_RELEASE (R461). -/
def execPrsntRelease (s : State) : Host.Outcome State Fault Refusal := .next (onDev prsntRelease s)

/-- PRSNT_RETURN (R462). -/
def execPrsntReturn (s : State) : Host.Outcome State Fault Refusal := .next (prsntReturn s)

end Sys2Proof.Machine
end

