-- ==== Sys2Proof/Machine/Regs.lean ====
section
/-! DEFINITION. The registers in BAR0 and their values (R5, R56 to R58, R108 to R111, R144, R166, R167, R210 to R215,
R260, R269, R270, R307 to R312, R357 to R361, R400 to R406, R416, R442 to R444, R474, R486, R535, R536, R539, R541,
R542, R555 to R557). -/

namespace Sys2Proof.Machine

/-! ### Register values -/

def w32 (n : Nat) : W32 := BitVec.ofNat 32 n
def w64 (n : Nat) : W64 := BitVec.ofNat 64 n

/-- PRT_STATUS (R307). -/
def prtStatus (d : Dev) (p : Nat) : W32 :=
  let x := portGet d p
  let ty := (x.ident.map (fun i => i.kind.toNat % 4)).getD 0
  w32 (x.st.code * 2 ^ 28 + x.lanes.toNat * 2 ^ 24 + x.retired.toNat * 2 ^ 20 + x.width * 2 ^ 17 + b2n x.k3 * 2 ^ 16 +
    ty * 2 ^ 14 + b2n x.owner * 2 ^ 13 + b2n (decide (6 ≤ p ∧ p ≤ 11) && expEligible d p) * 2 ^ 12 +
    b2n x.protected_ * 2 ^ 11 + x.cause)

/-- PRT_PARTNER_LO and PRT_PARTNER_HI (R309). -/
def prtPartner (d : Dev) (p : Nat) : Nat × Nat :=
  match (portGet d p).ident with
  | none => (0, 0)
  | some i =>
    (i.kind.toNat % 4 * 2 ^ 28 + i.lanes.toNat * 2 ^ 24 + i.port.toNat * 2 ^ 16 + i.boardSlot.toNat % 4 * 2 ^ 14 +
      i.node.toNat, i.incarnation.toNat)

/-- RST_CAUSE (R416). -/
def rstCause (d : Dev) : W32 := w32 (min 15 d.rst.failedStarts * 2 ^ 16 + d.rst.cause.toNat)

/-- RST_START_MS (R442). -/
def startMs (d : Dev) : Nat := d.rst.startMs.getD ((d.tim.now - d.rst.startAt) / 10 ^ 6)

/-- RST_START (R442). -/
def rstStart (d : Dev) : W32 :=
  w32 (d.rst.failCause * 2 ^ 24 + d.rst.failPhase % 16 * 2 ^ 20 + d.rst.hold * 2 ^ 8 + d.rst.phase % 16)

/-- RST_LMAP (R443). -/
def rstLmap (d : Dev) (w : Nat) : W32 := w32 (leNat ((List.range 4).map (fun i => BitVec.ofNat 8 (logicalOf d (4 * w + i)))))

/-- MEM_STATUS (R210). -/
def memStatus (d : Dev) : W32 :=
  w32 (b2n d.memc.retireFull * 2 ^ 31 + d.memc.stackReduced.toNat * 2 ^ 16 + d.memc.mezz2x.toNat * 2 ^ 8 +
    d.memc.stackUp.toNat)

/-- LND_STATUS (R108); the state reads its reset value until a start has applied fuses and defects. -/
def lndStatus (d : Dev) (l : Nat) : W32 :=
  let x := lndGet d l
  let st := if landUp d l || d.health.landState.isEmpty then
      (match x.phase with
      | .idle => 0 | .running => 1 | .waiting => 2 | .draining => 3 | .halted => 4)
    else 5
  w32 ((if landUp d l then logicalOf d l else 0xFF) * 2 ^ 24 + x.trk.length * 2 ^ 8 + st)

/-- LND_FAULT (R109). -/
def lndFault (d : Dev) (l : Nat) : W32 :=
  let f := (lndGet d l).flt
  if f.valid then w32 (2 ^ 31 + f.slot * 2 ^ 16 + f.cause) else 0

/-- GAL_TOPK_STATUS (R166). -/
def topkStatus (d : Dev) (g : Nat) : W32 :=
  w32 (b2n (!(spGet [] d.memc.topRun g).isEmpty) * 512 + (spGet [] d.memc.topQ g).length)

/-- GAL_THERM (R406): whole degrees of the hottest junction sensor. -/
def galTherm (d : Dev) (g : Nat) : W32 :=
  let x := galGet d g
  let t := (match galHot x with
    | some v => v.toNat / 10
    | none => 0)
  w32 (t % 256 * 2 ^ 24 + x.clk * 2 ^ 16 + b2n x.selfThrottle * 4 + b2n (decide (60 < x.clk)) * 2 + b2n x.sensorFault)

/-- NIC_STATUS (R357). -/
def nicStatus (d : Dev) : W32 := w32 (d.nic.insts.length * 2 ^ 23 + vestUsed d * 2 ^ 7)

/-- DBG_LS_STATUS (R486). -/
def lsStatus (d : Dev) : W32 := w32 (b2n d.ls.localDetect * 2 ^ 12 + d.ls.endCause * 2 ^ 8 + d.ls.state)

/-- DBG_LS_WHERE (R486). -/
def lsWhere (d : Dev) : W32 := w32 (d.ls.rank % 2 ^ 16 * 2 ^ 16 + d.ls.bundle % 4096)

/-- PWR_STOP (R403). -/
def pwrStop (d : Dev) : W32 := w32 (d.pwr.supply.stopRail * 16 + d.pwr.supply.stopCause)

/-- A hold of new launches by the module state (R509, R546). -/
def stateHold (d : Dev) : Bool := !(isUp d) || d.kmd.pendState != 0

/-- HIF_STATUS.hold (R546, R556). -/
def hifHold (d : Dev) : Nat := if stateHold d then 1 else if d.rst.coreBusy then 2 else if d.hif.d3hot then 3 else 0

/-- HIF_STATUS (R556). -/
def hifStatus (d : Dev) : W32 :=
  w32 (d.hif.speed * 2 ^ 28 + d.hif.width * 2 ^ 23 + b2n d.hif.flit * 2 ^ 22 + b2n d.hif.d3hot * 2 ^ 21 + hifHold d)

/-- NIC_CTR (R360). -/
def nicCtr (d : Dev) (c : Nat) : W64 := w64 (b2n (ctrGet d c).err * 2 ^ 63 + (ctrGet d c).val.toNat)

/-- A word of NIC_CTX_CFG (R358). -/
def ctxCfgWord (d : Dev) (n w : Nat) : W64 := (ctxCfg d n).extractLsb' (64 * w) 64

/-! ### Counters (R15) -/

/-- Offsets `a`, `a + 8`, … below `b`. -/
def step8 (off a b : Nat) : Bool := decide (a ≤ off ∧ off < b) && (off - a) % 8 == 0

/-- A landing, flight, gallery or port register: its number and its offset in the span. -/
def spanOf (base span count off : Nat) : Option (Nat × Nat) :=
  if base ≤ off ∧ off < base + span * count then some ((off - base) / span, (off - base) % span) else none

/-- The offset is an event counter's. -/
def isCounter (off : Nat) : Bool :=
  step8 off (hifBase + 0x400) (hifBase + 0x448) || step8 off (rstBase + 0x200) (rstBase + 0x230) ||
  step8 off (pwrBase + 0x300) (pwrBase + 0x378) || step8 off (memBase + 0x400) (memBase + 0x4C0) ||
  step8 off (dbgBase + 0x140) (dbgBase + 0x158) || step8 off rtrBase (rtrBase + 0x60) ||
  step8 off (nicBase + 0x800) (nicBase + 0x8B0) || step8 off (nicBase + 0x900) (nicBase + 0x998) ||
  (match spanOf (rtrBase + 0x1000) 0x100 20 off with
  | some (_, o) => step8 o 0 0x28
  | none => false) ||
  (match spanOf (prtBase 0) 0x400 16 off with
  | some (_, o) => step8 o 0x100 0x170 || (decide (0x200 ≤ o ∧ o < 0x280) && step8 ((o - 0x200) % 0x20) 0 0x18)
  | none => false) ||
  (match spanOf (nicBase + 0x2000) 0x40 32 off with
  | some (_, o) => step8 o 0 0x28
  | none => false) ||
  (match spanOf (galBase 0) 0x1000 12 off with
  | some (_, o) => step8 o 0x100 0x128 || step8 o 0x200 0x228
  | none => false) ||
  (match spanOf (lndBase 0) 0x1000 104 off with
  | some (_, o) => step8 o 0x100 0x160
  | none => false) ||
  (match spanOf (fltBase 0) 0x1000 104 off with
  | some (_, o) => step8 o 0 0x58
  | none => false)

/-! ### The register at an offset -/

/-- The ring register at a HIF_ offset: slot, ring and offset in the ring's registers (R542). -/
def ringReg (off : Nat) : Option (Nat × Nat × Nat) :=
  (spanOf 0x1000 0x40 256 off).map (fun p => (p.1 / 8, p.1 % 8, p.2))

/-- A 64-bit register of the host interface, rack time or power. -/
def reg64a (d : Dev) (off : Nat) : Option W64 :=
  match ringReg off with
  | some (n, r, 0x00) => some (ringGet d n r).base
  | some (n, r, 0x08) => some (ringGet d n r).cqBase
  | _ =>
    if step8 off 0x100 0x180 then some (spGet 0 d.hif.win ((off - 0x100) / 8))
    else if off = timBase then some d.tim.count
    else if step8 off (pwrBase + 0x100) (pwrBase + 0x200) then some (spGet 0 d.pwr.ctxEnergy ((off - pwrBase - 0x100) / 8))
    else if off = pwrBase + 0x200 then some d.pwr.overhead
    else if off = pwrBase + 0x208 then some d.pwr.ballastE
    else if off = pwrBase + 0x210 then some d.pwr.total
    else none

/-- A 64-bit register of memory, lock-step or the NIC. -/
def reg64b (d : Dev) (off : Nat) : Option W64 :=
  if off = memBase + 0x10 then some d.memc.engErr
  else if step8 off (memBase + 0x100) (memBase + 0x200) then some (regGet d off)
  else if off = dbgBase + 0x110 then some d.ls.va
  else if off = dbgBase + 0x118 then some d.ls.own
  else if off = dbgBase + 0x120 then some d.ls.theirs
  else if step8 off (nicBase + 0x1800) (nicBase + 0x1900) then some (spGet 0 d.nic.cqProd ((off - nicBase - 0x1800) / 8))
  else if step8 off (nicBase + 0x10000) (nicBase + 0x18000) then some (nicCtr d ((off - nicBase - 0x10000) / 8))
  else
    match spanOf (nicBase + 0x1000) 0x40 32 off, spanOf (nicBase + 0x4000) 0x100 32 off with
    | some (n, o), _ => if step8 o 0 0x20 then some (ctxCfgWord d n (o / 8)) else none
    | none, some (_, o) => if step8 o 0 0x80 then some (regGet d off) else none
    | none, none => none

/-- The 64-bit register at an offset, if there is one. -/
def reg64 (d : Dev) (off : Nat) : Option W64 :=
  if isCounter off then some (cntGet d off)
  else
    match reg64a d off with
    | some v => some v
    | none => reg64b d off

/-- A dword of the MSI-X structures (R539, R554). -/
def msixReg (d : Dev) (off : Nat) : Option W32 :=
  if 0x7000 ≤ off ∧ off < 0x7100 then
    some (w32 (((List.range 32).map (fun i => if d.hif.pba.contains ((off - 0x7000) * 8 + i) then 2 ^ i else 0)).sum))
  else if 0x8000 ≤ off ∧ off < 0x10000 then
    let v := (off - 0x8000) / 16
    match (off - 0x8000) % 16 with
    | 0 => some (w32 (fieldN (spGet 0 d.hif.msixAddr v) 31 0))
    | 4 => some (w32 (fieldN (spGet 0 d.hif.msixAddr v) 63 32))
    | 8 => some (spGet 0 d.hif.msixData v)
    | 12 => some (w32 (b2n (spGet true d.hif.msixMask v)))
    | _ => none
  else none

/-- A 32-bit register of the host interface. -/
def reg32hif (d : Dev) (off : Nat) : Option W32 :=
  match off with
  | 0x0 => some (w32 (hifId d))
  | 0x4 => some d.hif.err
  | 0x8 => some (hifStatus d)
  | 0xC => some (w32 (b2n d.hif.scrubBusy * 2 ^ 31))
  | _ =>
    match ringReg off with
    | some (n, r, 0x10) => some (ringGet d n r).cfg
    | some (n, r, 0x14) => some (ringGet d n r).tail
    | some (n, r, 0x18) => some (ringGet d n r).head
    | some (n, r, 0x1C) => some (ringGet d n r).prod
    | _ => msixReg d off

/-- A 32-bit register of rack time, reset, power, memory or lock-step. -/
def reg32hub (d : Dev) (off : Nat) : Option W32 :=
  if off = timBase + 0x8 then some (timStatus d.tim)
  else if off = timBase + 0xC then some (d.tim.evt.setWidth 32)
  else if off = rstBase then some (rstCause d)
  else if off = rstBase + 0x4 then some d.rst.incarnation
  else if off = rstBase + 0x8 then some (rstStart d)
  else if off = rstBase + 0xC then some (w32 (startMs d))
  else if rstBase + 0x100 ≤ off ∧ off < rstBase + 0x168 ∧ off % 4 = 0 then some (rstLmap d ((off - rstBase - 0x100) / 4))
  else if off = pwrBase then some (pwrStatus d)
  else if off = pwrBase + 0x4 then some (d.pwr.lim.evt.setWidth 32)
  else if off = pwrBase + 0x8 then some (w32 (objGet d 0x210002))
  else if off = pwrBase + 0xC then some (w32 (objGet d 0x212001))
  else if off = pwrBase + 0x10 then some (w32 d.pwr.lim.drawW)
  else if off = pwrBase + 0x14 then some (w32 d.pwr.lim.limit)
  else if off = pwrBase + 0x18 then some (pwrStop d)
  else if off = memBase then some (memStatus d)
  else if off = memBase + 0x8 then some (w32 (b2n d.memc.xltInv.isSome * 2 ^ 31))
  else if memBase + 0x200 ≤ off ∧ off < memBase + 0x300 ∧ off % 4 = 0 then some ((regGet d off).setWidth 32)
  else if off = dbgBase + 0x100 then some (lsStatus d)
  else if off = dbgBase + 0x104 then some d.ls.kernel
  else if off = dbgBase + 0x108 then some (lsWhere d)
  else if off = dbgBase + 0x10C then some d.ls.seq
  else none

/-- A 32-bit register of a port, the NIC, a gallery or a landing. -/
def reg32die (d : Dev) (off : Nat) : Option W32 :=
  if off = nicBase then some (nicStatus d)
  else
    match spanOf (prtBase 0) 0x400 16 off, spanOf (galBase 0) 0x1000 12 off, spanOf (lndBase 0) 0x1000 104 off with
    | some (p, o), _, _ =>
      (match o with
      | 0x0 => some (prtStatus d p)
      | 0x8 => some (w32 (prtPartner d p).1)
      | 0xC => some (w32 (prtPartner d p).2)
      | 0x10 => some ((portGet d p).evt.setWidth 32)
      | _ => none)
    | none, some (g, o), _ =>
      (match o with
      | 0x0 => some (topkStatus d g)
      | 0x8 => some (galTherm d g)
      | _ => none)
    | none, none, some (l, o) =>
      (match o with
      | 0x0 => some (lndStatus d l)
      | 0x4 => some (lndFault d l)
      | 0x8 => some (w32 ((lndGet d l).flt.pc % 4096))
      | 0x10 => some (w32 (fieldN (lndGet d l).flt.addr 31 0))
      | 0x14 => some (w32 (fieldN (lndGet d l).flt.addr 63 32))
      | _ => none)
    | none, none, none => none

/-- The 32-bit register at an offset, if there is one. -/
def reg32 (d : Dev) (off : Nat) : Option W32 :=
  if off < 0x10000 then reg32hif d off
  else if off < 0x80000 then reg32hub d off
  else reg32die d off

/-! ### Reads (R56, R535) -/

/-- A completion to the host. -/
def hostReply (data : List Byte) (ep : Bool) (d : Dev) : Dev :=
  { d with hif := { d.hif with out := snoc d.hif.out (.completion data ep) } }

/-- Completer Abort to the host. -/
def hostAbort (d : Dev) : Dev := { d with hif := { d.hif with out := snoc d.hif.out .abort } }

/-- The dword at an offset and the latch it sets: a low word latches the upper one, a high word gives what was latched
(R56). -/
def dword (off : Nat) (d : Dev) : W32 × Dev :=
  if off % 8 = 0 then
    match reg64 d off with
    | some v =>
      (w32 (fieldN v 31 0), { d with hif := { d.hif with latch := spPut 0 off (w32 (fieldN v 63 32)) d.hif.latch } })
    | none => ((reg32 d off).getD 0, d)
  else
    match reg64 d (off - 4) with
    | some _ => (spGet 0 d.hif.latch (off - 4), d)
    | none => ((reg32 d off).getD 0, d)

/-- A read of 4 or 8 bytes (R535). One of 8 bytes returns the register whole and leaves its latch of R56 alone (log entry
78). -/
def bar0Read (off : Nat) (wide : Bool) (d : Dev) : Dev :=
  if wide then
    match reg64 d off with
    | some v => hostReply (leBytes 8 v.toNat) false d
    | none => hostReply (leBytes 4 ((reg32 d off).getD 0).toNat ++ leBytes 4 ((reg32 d (off + 4)).getD 0).toNat) false d
  else
    let (v, d) := dword off d
    hostReply (leBytes 4 v.toNat) false d

/-- An access of another size or alignment is not carried out; a read is answered with Completer Abort (R535). -/
def bar0Bad (isRead : Bool) (d : Dev) : Dev := hifErrBit 5 (if isRead then hostAbort d else d)

/-- An access of 4 or 8 bytes is naturally aligned. -/
def bar0Aligned (off : Nat) (wide : Bool) : Bool := off % (if wide then 8 else 4) == 0

end Sys2Proof.Machine
end

