-- ==== Sys2Proof/Machine/HostRegs.lean ====
section
/-! DEFINITION. Writes to the registers in BAR0 (R11 to R14, R58, R109, R208, R212, R214, R260, R310, R358, R360, R401,
R402, R416, R458, R475, R535, R536, R541, R542, R554, R555). -/

namespace Sys2Proof.Machine

/-! ### Write 1 to clear (R11) -/

/-- HIF_ERR (R555). -/
def hifErrClear (v : W32) (d : Dev) : Dev := { d with hif := { d.hif with err := d.hif.err &&& ~~~(v &&& 0x7F) } }

/-- TIM_EVT (R58). -/
def timEvtClear (v : W32) (d : Dev) : Dev := { d with tim := { d.tim with evt := d.tim.evt &&& ~~~(v.setWidth 8) } }

/-- RST_CAUSE (R416). -/
def rstCauseClear (v : W32) (d : Dev) : Dev := { d with rst := { d.rst with cause := d.rst.cause &&& ~~~(v.setWidth 14) } }

/-- PWR_EVT (R401). -/
def pwrEvtClear (v : W32) (d : Dev) : Dev :=
  { d with pwr := { d.pwr with lim := { d.pwr.lim with evt := d.pwr.lim.evt &&& ~~~(v.setWidth 10) } } }

/-- PRT_EVT (R310). -/
def prtEvtClear (p : Nat) (v : W32) (d : Dev) : Dev := portMod p (fun x => { x with evt := x.evt &&& ~~~(v.setWidth 5) }) d

/-- LND_FAULT.valid clears the whole register (R109). -/
def lndFaultClear (l : Nat) (v : W32) (d : Dev) : Dev :=
  if v.getLsbD 31 then lndMod l (fun x => { x with flt := { x.flt with valid := false, slot := 0, cause := 0 } }) d else d

/-- MEM_ENG_ERR.valid clears the whole register (R212). -/
def engErrClear (v : W64) (d : Dev) : Dev :=
  if v.getLsbD 63 then { d with memc := { d.memc with engErr := 0 } } else d

/-! ### Context slots and counters (R208, R358, R360, R458, R475) -/

/-- The ID and generation a slot would become valid with may be used (R458): 128 µs after the scrub and its zero fill,
and another generation. -/
def ctxReusable (d : Dev) (id gen : Nat) : Bool :=
  !(d.health.fills.any (fun c => c.ctx / 16 == id)) &&
  (match spGet none d.health.scrubbed id with
  | none => true
  | some (g, t) => decide (t + 128000 ≤ d.tim.now) && g != gen)

/-- Counter and trigger ranges and the ring size lie within their bounds (R358). -/
def ctxFits (x : BitVec 256) : Bool :=
  decide (fieldN x 233 222 + fieldN x 221 209 ≤ 4096 ∧ fieldN x 208 195 + fieldN x 194 180 ≤ 16384 ∧
    fieldN x 221 209 ≤ 4096 ∧ fieldN x 194 180 ≤ 16384 ∧ fieldN x 179 176 ≤ 14)

/-- Two ranges of numbers, by first and count, have one in common. -/
def numbersMeet (a n b m : Nat) : Bool := decide (0 < n ∧ 0 < m ∧ a < b + m ∧ b < a + n)

/-- The counter or trigger range of a slot would overlap that of another valid slot (R315). -/
def ctxClash (d : Dev) (n : Nat) (x : BitVec 256) : Bool :=
  (List.range 32).any (fun m =>
    let y := ctxCfg d m
    m != n && ctxValid d m &&
      (numbersMeet (fieldN x 233 222) (fieldN x 221 209) (fieldN y 233 222) (fieldN y 221 209) ||
        numbersMeet (fieldN x 208 195) (fieldN x 194 180) (fieldN y 208 195) (fieldN y 194 180)))

/-- A slot becomes valid: its counters 0, its records and its timing-dependent choices counted from 0, its mode fixed, and
what an earlier context wrote into stores cold (R208, R358, R359, R474, R475). -/
def ctxEnable (n : Nat) (x : BitVec 256) (s : State) : State :=
  let b := fieldN x 233 222
  let c := fieldN x 221 209
  let d := s.dev
  let repro := x.getLsbD 254 || objGet d 0x604001 == 1
  let d := { d with nic := { d.nic with
    ctxCfg := spPut 0 n x d.nic.ctxCfg
    ctr := spErase (fun k => decide (b ≤ k ∧ k < b + c)) d.nic.ctr
    cqProd := spPut 0 n 0 d.nic.cqProd
    held := spPut [] n [] d.nic.held
    repro := setField d.nic.repro n 1 (b2n repro) } }
  coldWritten n { s with dev := cntClear (nicBase + 0x2000 + 0x40 * n) (nicBase + 0x2000 + 0x40 * n + 0x28) d }

/-- A word of a 256-bit register replaced; reserved bits stay 0 (R12, R358). -/
def ctxWordPut (x : BitVec 256) (w : Nat) (v : W64) : BitVec 256 :=
  let v : W64 := if w = 0 ∨ w = 1 then v &&& 0xFFFFFFFFFFFF0000 else v
  setField x (64 * w) 64 v.toNat

/-- A write of a word of NIC_CTX_CFG (R358). -/
def ctxCfgPut (n w : Nat) (v : W64) (s : State) : State :=
  let x := ctxWordPut (ctxCfg s.dev n) w v
  if !(isLive s.dev) || ctxValid s.dev n then { s with dev := refuseState s.dev }
  else if x.getLsbD 255 then
    if !(ctxReusable s.dev (fieldN x 249 238) (fieldN x 237 234)) then { s with dev := refuseState s.dev }
    else if !(ctxFits x) || ctxClash s.dev n x then { s with dev := refuseRange s.dev }
    else ctxEnable n x s
  else { s with dev := { s.dev with nic := { s.dev.nic with ctxCfg := spPut 0 n x s.dev.nic.ctxCfg } } }

/-- A write of NIC_CTR (R325, R330, R360). -/
def ctrWrite (c : Nat) (v : W64) (s : State) : State :=
  match ctrOwner s.dev c with
  | none => { s with dev := refuseState s.dev }
  | some n =>
    if kernelRuns s.dev n then { s with dev := refuseState s.dev }
    else ctrSet c ⟨v.setWidth 48, v.getLsbD 63⟩ s

/-! ### Rings (R542) -/

/-- A write of HIF_LQ_CFG (R13, R14, R542). -/
def lqCfgPut (n r : Nat) (v : W32) (d : Dev) : Dev :=
  let v : W32 := v &&& 0x87FF000F
  let q := ringGet d n r
  let turnsOn := v.getLsbD 31 && !(ringOn q)
  let fields := fieldN v 30 0 != fieldN q.cfg 30 0
  if (ringOn q && fields) || (turnsOn && !(ctxValid d n)) || (ringOn q && !(v.getLsbD 31) && q.tail != q.prod) then
    refuseState d
  else if fieldN v 3 0 < 4 ∨ 12 < fieldN v 3 0 ∨ fieldN v 26 16 < 16 then refuseRange d
  else if turnsOn then ringPut n r { q with cfg := v, tail := 0, head := 0, prod := 0 } d
  else ringPut n r { q with cfg := v } d

/-- A write of HIF_LQ_BASE or HIF_CQ_BASE (R542). -/
def ringBasePut (n r : Nat) (cq : Bool) (v : W64) (d : Dev) : Dev :=
  let q := ringGet d n r
  let v : W64 := v &&& 0xFFFFFFFFFFFFF000
  if ringOn q then refuseState d
  else if cq then ringPut n r { q with cqBase := v } d
  else ringPut n r { q with base := v } d

/-! ### Windows, apertures, MSI-X (R214, R260, R536, R554) -/

/-- HIF_BAR2_WIN[k] (R536). -/
def barWinPut (k : Nat) (v : W64) (d : Dev) : Dev :=
  if 0x010F < fieldN v 47 32 then refuseRange d
  else { d with hif := { d.hif with win := spPut 0 k (v &&& 0x8000FFFF00000000) d.hif.win } }

/-- NIC_RX_APT or NIC_RX_APT_BASE of a slot (R260). -/
def apertPut (n o : Nat) (v : W64) (d : Dev) : Dev :=
  if !(isLive d) || ctxValid d n then refuseState d
  else regPut (nicBase + 0x4000 + 0x100 * n + o) (v &&& (if o % 16 = 0 then 0xC00001FFFFE00000 else 0x000001FFFFE00000)) d

/-- MEM_RWIN_CFG (R214). -/
def rackWinPut (off : Nat) (v : W32) (d : Dev) : Dev :=
  if isLive d then regPut off ((v &&& 0x80000FFF).setWidth 64) d else refuseState d

/-- A pending vector whose mask is taken away fires. -/
def firePending (v : Nat) (d : Dev) : Dev :=
  if d.hif.pba.contains v then fireVec v { d with hif := { d.hif with pba := nsErase v d.hif.pba } } else d

/-- A dword of the MSI-X table (R539, R554): its layout is that of PCIe (PRESUMED). -/
def msixPut (off : Nat) (v : W32) (d : Dev) : Dev :=
  let n := (off - 0x8000) / 16
  let a := spGet 0 d.hif.msixAddr n
  match (off - 0x8000) % 16 with
  | 0 => { d with hif := { d.hif with msixAddr := spPut 0 n (setField a 0 32 (v &&& 0xFFFFFFFC).toNat) d.hif.msixAddr } }
  | 4 => { d with hif := { d.hif with msixAddr := spPut 0 n (setField a 32 32 v.toNat) d.hif.msixAddr } }
  | 8 => { d with hif := { d.hif with msixData := spPut 0 n v d.hif.msixData } }
  | 12 =>
    let d := { d with hif := { d.hif with msixMask := spPut true n (v.getLsbD 0) d.hif.msixMask } }
    if v.getLsbD 0 then d else firePending n d
  | _ => d

/-! ### The register at an offset -/

/-- A write of a 32-bit register; a register that is read only, or no register, ignores it (R11, R535). -/
def write32 (off : Nat) (v : W32) (d : Dev) : Dev :=
  if off = hifBase + 0x4 then hifErrClear v d
  else if off = hifBase + 0xC then hifScrub (fieldN v 4 0) d
  else if 0x8000 ≤ off ∧ off < 0x10000 then msixPut off v d
  else if off = timBase + 0xC then timEvtClear v d
  else if off = rstBase then rstCauseClear v d
  else if off = pwrBase + 0x4 then pwrEvtClear v d
  else if off = pwrBase + 0x8 then pwrCapWrite v d
  else if off = pwrBase + 0xC then pwrFfWrite v d
  else if off = memBase + 0x8 then xltInvWrite v d
  else if memBase + 0x200 ≤ off ∧ off < memBase + 0x300 then rackWinPut off v d
  else
    match ringReg off, spanOf (prtBase 0) 0x400 16 off, spanOf (lndBase 0) 0x1000 104 off with
    | some (n, r, 0x10), _, _ => lqCfgPut n r v d
    | _, some (p, 0x10), _ => prtEvtClear p v d
    | _, _, some (l, 0x4) => lndFaultClear l v d
    | _, _, _ => d

/-- A write of a 64-bit register. -/
def write64 (off : Nat) (v : W64) (s : State) : State :=
  if isCounter off then s
  else if step8 off 0x100 0x180 then { s with dev := barWinPut ((off - 0x100) / 8) v s.dev }
  else if off = memBase + 0x10 then { s with dev := engErrClear v s.dev }
  else if step8 off (memBase + 0x100) (memBase + 0x200) then
    { s with dev := xltRootPut ((off - memBase - 0x100) / 8) v s.dev }
  else if step8 off (nicBase + 0x10000) (nicBase + 0x18000) then ctrWrite ((off - nicBase - 0x10000) / 8) v s
  else
    match ringReg off, spanOf (nicBase + 0x1000) 0x40 32 off, spanOf (nicBase + 0x4000) 0x100 32 off with
    | some (n, r, 0x00), _, _ => { s with dev := ringBasePut n r false v s.dev }
    | some (n, r, 0x08), _, _ => { s with dev := ringBasePut n r true v s.dev }
    | none, some (n, o), _ => if o < 0x20 then ctxCfgPut n (o / 8) v s else s
    | none, none, some (n, o) => if o < 0x80 then { s with dev := apertPut n o v s.dev } else s
    | _, _, _ => s

/-- The value a 4-byte write to half of a 64-bit register writes: the other half as it is, or 0 where a written 1 would
clear it. -/
def halfValue (d : Dev) (off : Nat) (high : Bool) (v : W32) : W64 :=
  let old : W64 := if off = memBase + 0x10 then 0 else (reg64 d off).getD 0
  if high then setField old 32 32 v.toNat else setField old 0 32 v.toNat

/-- A BAR0 write of 4 or 8 bytes (R11 to R14, R535). -/
def bar0Write (off : Nat) (wide : Bool) (v : W64) (s : State) : State :=
  if !(bar0Aligned off wide) then { s with dev := bar0Bad false s.dev }
  else if wide then
    if (reg64 s.dev off).isSome then write64 off v s
    else { s with dev := write32 (off + 4) (v.extractLsb' 32 32) (write32 off (v.setWidth 32) s.dev) }
  else if off % 8 = 0 ∧ (reg64 s.dev off).isSome = true then write64 off (halfValue s.dev off false (v.setWidth 32)) s
  else if off % 8 = 4 ∧ (reg64 s.dev (off - 4)).isSome = true then
    write64 (off - 4) (halfValue s.dev (off - 4) true (v.setWidth 32)) s
  else { s with dev := write32 off (v.setWidth 32) s.dev }

/-! ### The commands -/

/-- REGISTER_WRITE (R11 to R14, R535). -/
def execRegisterWrite (off : Nat) (wide : Bool) (v : W64) (s : State) : Host.Outcome State Fault Refusal :=
  .next (fromHost (bar0Write off wide v) s)

/-- LOW_WORD_READ (R56, R535). -/
def execLowWordRead (off : Nat) (wide : Bool) (s : State) : Host.Outcome State Fault Refusal :=
  .next (fromHost (onDev (fun d => if bar0Aligned off wide then bar0Read off wide d else bar0Bad true d)) s)

/-- The access is one that R535 does not carry out. -/
def bar0Illegal (off size : Nat) : Bool := !((size == 4 || size == 8) && off % size == 0)

/-- BAR0_BAD_ACCESS (R535). -/
def execBar0BadAccess (off size : Nat) (isRead : Bool) (s : State) : Host.Outcome State Fault Refusal :=
  .next (fromHost (onDev (fun d => if bar0Illegal off size then bar0Bad isRead d else d)) s)

/-- LQ_CFG_WRITE (R542). -/
def execLqCfgWrite (slot : Fin 32) (ring : Fin 8) (v : W32) (s : State) : Host.Outcome State Fault Refusal :=
  .next (fromHost (onDev (lqCfgPut slot.val ring.val v)) s)

/-- CTX_CFG_WRITE (R358): one of the four words of a slot. -/
def execCtxCfgWrite (slot : Fin 32) (word : Fin 4) (v : W64) (s : State) : Host.Outcome State Fault Refusal :=
  .next (fromHost (ctxCfgPut slot.val word.val v) s)

/-- CTR_WRITE (R360). -/
def execCtrWrite (ctr : BitVec 12) (v : W64) (s : State) : Host.Outcome State Fault Refusal :=
  .next (fromHost (ctrWrite ctr.toNat v) s)

end Sys2Proof.Machine
end

