-- ==== Sys2Proof/Machine/Host.lean ====
section
/-! DEFINITION. Doorbells, launch descriptors, the start of kernels, transfers, markers, BAR2 and the link (R101, R208,
R218, R230, R532, R533, R536 to R538, R543 to R548, R551, R553, R556). -/

namespace Sys2Proof.Machine

/-! ### Doorbells (R538, R543) -/

/-- A doorbell that is not accepted. -/
def doorbellBad (bit slot ring : Nat) (d : Dev) : Dev :=
  cntInc (hifBase + 0x408) (hifErrWhere slot ring (hifErrBit bit d))

/-- A doorbell for ring `r` of context ID `c`; the slot of an unknown context is a value R555 does not give. -/
def ringDoorbell (c r : Nat) (v : W32) (d : Dev) : Dev :=
  match slotOfId d c with
  | none =>
    let (x, d) := drawFree d
    doorbellBad 2 (x.toNat % 32) r d
  | some n =>
    let q := ringGet d n r
    if !(ringOn q) || scrubbing d n then doorbellBad 2 n r d
    else if v = q.tail ∨ 2 ^ ringLog q < (v - q.prod).toNat then doorbellBad 3 n r d
    else cntInc (hifBase + 0x400) (ringPut n r { q with tail := v } d)

/-- A write to BAR4. -/
def bar4Write (off bytes : Nat) (v : W32) (d : Dev) : Dev :=
  let o := off % 0x1000
  if bytes = 4 ∧ off < 2 ^ 24 ∧ o < 0x40 ∧ o % 8 = 0 then ringDoorbell (off / 0x1000) (o / 8) v d
  else cntInc (hifBase + 0x408) d

/-! ### Launch descriptors (R544, R545) -/

def lAddr0 (x : BitVec 1024) : Nat := lField x 16 8
def lAddr1 (x : BitVec 1024) : Nat := lField x 24 8
def lLen (x : BitVec 1024) : Nat := lField x 32 4
def lEntry (x : BitVec 1024) : Nat := lField x 36 2

/-- Logical landings a descriptor names, ascending. -/
def lSet (x : BitVec 1024) : List Nat := (List.range 96).filter (fun i => x.getLsbD (320 + i))

/-- The bytes and bits that R544 keeps 0 for the kind, and a length or an alignment it does not give. -/
def lReserved (x : BitVec 1024) : Bool :=
  fieldN x 15 10 != 0 || lField x 2 6 != 0 || lField x 38 2 != 0 || lField x 56 72 != 0 ||
  (match lField x 0 1 with
  | 0 => lField x 52 4 != 0 || lAddr0 x % 64 != 0
  | 1 => lEntry x != 0 || lField x 40 16 != 0 || lLen x == 0
  | 2 => lEntry x != 0 || lField x 40 16 != 0 || lLen x == 0
  | 3 => lAddr0 x != 0 || lAddr1 x != 0 || lLen x != 0 || lEntry x != 0 || lField x 40 16 != 0
  | _ => true)

/-- Every page of a range has a leaf; `n` bounds the pages. -/
def rangeMapped : Nat → Nat → Nat → Nat → State → Bool × State
  | 0, _, _, _, s => (true, s)
  | n + 1, slot, va, len, s =>
    if len = 0 then (true, s)
    else
      let (r, s) := leafFor s slot va
      match r with
      | .error _ => (false, s)
      | .ok l =>
        let m := min len (l.size - va % l.size)
        rangeMapped n slot (va + m) (len - m) s

/-- The range a descriptor reads or writes in the module: translated and in stack or mezzanine memory, or its status and
cause. -/
def lRange (slot va len : Nat) (wr : Bool) (s : State) : Option (Nat × Nat) × State :=
  let (ok, s) := rangeMapped (len / 4096 + 2) slot va len s
  if !ok then (some (2, 5), s)
  else
    let (r, s) := xlateRange s slot va len wr
    match r with
    | .error (.unmapped, _) => (some (2, 5), s)
    | .error _ => (some (2, 6), s)
    | .ok (pa, _) => (if tierDram (tierOf pa) then none else some (2, 6), s)

/-- Every landing of a set runs (R436). -/
def setRuns (d : Dev) (l : List Nat) : Bool :=
  l.all (fun i =>
    match physOf d i with
    | some p => landUp d p
    | none => false)

/-- The first failing check of a kernel's descriptor. -/
def kernelChecks (slot : Nat) (x : BitVec 1024) (s : State) : Option (Nat × Nat) × State :=
  if lLen x = 0 ∨ lLen x % 64 ≠ 0 ∨ 262144 < lLen x then (some (2, 2), s)
  else if lLen x / 64 ≤ lEntry x then (some (2, 3), s)
  else if lSet x = [] then (some (2, 4), s)
  else
    let (r, s) := lRange slot (lAddr0 x) (lLen x) false s
    match r with
    | some v => (some v, s)
    | none => (if setRuns s.dev (lSet x) then none else some (3, 0), s)

/-- The checks of R545 in their order: status and cause of the first that fails. -/
def launchChecks (slot : Nat) (x : BitVec 1024) (s : State) : Option (Nat × Nat) × State :=
  if lReserved x then (some (2, 1), s)
  else
    match lField x 0 1 with
    | 0 => kernelChecks slot x s
    | 1 => lRange slot (lAddr1 x) (lLen x) true s
    | 2 => lRange slot (lAddr1 x) (lLen x) false s
    | _ => (none, s)

/-- A fetched descriptor joins its ring (R543). -/
def fetchedPut (slot ring : Nat) (x : BitVec 1024) (v : Option (Nat × Nat)) (d : Dev) : Dev :=
  let q := ringGet d slot ring
  flushRing slot ring (ringPut slot ring { q with head := q.head + 1, fetched := snoc q.fetched ⟨q.head, x, v, 0⟩ } d)

/-- A fetch fails: what its descriptor holds is unknown, so its tag, kind and flags are free values (R543). -/
def fetchFailed (slot ring : Nat) (d : Dev) : Dev :=
  let (t, d) := drawFree d
  let (k, d) := drawFree d
  let x : BitVec 1024 := BitVec.ofNat 1024 (t.toNat * 2 ^ 64 + k.toNat / 4 % 4 * 256 + k.toNat % 4)
  fetchedPut slot ring x (some (8, 1)) (cntInc (hifBase + 0x430) (hifErrWhere slot ring (hifErrBit 6 d)))

/-- A fetch of the ring is out: it is enabled, its head is below its tail, and at most 4 descriptors are ahead (R543). -/
def fetchOut (d : Dev) (slot ring : Nat) : Bool :=
  let q := ringGet d slot ring
  ringOn q && q.head != q.tail && decide (q.fetched.length < 4)

/-- The answer to a descriptor fetch (R543, R545). -/
def fetchDone (slot ring : Nat) (r : HostRsp) (s : State) : State :=
  if !(fetchOut s.dev slot ring) then s
  else
    match r with
    | .data b =>
      let x : BitVec 1024 := BitVec.ofNat 1024 (leNat (b.take 128))
      let (v, s) := launchChecks slot x s
      { s with dev := fetchedPut slot ring x v s.dev }
    | _ => { s with dev := fetchFailed slot ring s.dev }

/-! ### The start of launched work (R546) -/

/-- Nothing starts on the slot (R546 rule 5). -/
def launchHeld (d : Dev) (slot : Nat) : Bool := stateHold d || d.rst.coreBusy || d.rst.withdraw.isSome || scrubbing d slot || d.hif.d3hot

/-- The front of a ring that may start: no other item of the ring runs, it passed its checks, and nothing holds it. -/
def mayStart (d : Dev) (slot ring kind : Nat) : Option LDesc :=
  let q := ringGet d slot ring
  if q.run.isSome || launchHeld d slot then none
  else
    match q.fetched with
    | x :: _ => if x.verdict.isNone && lField x.desc 0 1 == kind then some x else none
    | [] => none

/-- The front of a ring begins to run. -/
def beginRun (slot ring : Nat) (x : LDesc) (lands : List Nat) (compared : Bool) (d : Dev) : Dev :=
  let q := ringGet d slot ring
  ringPut slot ring { q with
    fetched := q.fetched.drop 1
    run := some ⟨x.idx, x.desc, lands, [], none, false, none, 0, false, false, 0, compared, false, false⟩ } d

/-- A landing belongs to a kernel that has not completed. -/
def landingInRun (d : Dev) (l : Nat) : Bool :=
  d.hif.rings.any (fun e =>
    match e.2.run with
    | some k => k.landings.contains l
    | none => false)

/-- A landing is idle; one halted on a fault is once its kernel has completed. -/
def landingIdle (d : Dev) (l : Nat) : Bool :=
  let x := lndGet d l
  x.trk.isEmpty && (x.phase == .idle || (x.phase == .halted && !(landingInRun d l)))

/-- A kernel that became ready earlier waits for a landing of the set, and so reserves it once it is idle (R546 rule 3). -/
def reservedBefore (d : Dev) (ready : Nat) (set : List Nat) : Bool :=
  d.hif.rings.any (fun e =>
    match e.2.run, e.2.fetched with
    | none, x :: _ => x.verdict.isNone && lField x.desc 0 1 == 0 && x.ready != 0 && decide (x.ready < ready) &&
        (lSet x.desc).any (fun i => set.contains i)
    | _, _ => false)

/-- An instruction store with an image; bundles at and above its length are empty (R101). -/
def imageOf (l : List (BitVec 512)) : Sparse (BitVec 512) :=
  (l.zipIdx.filter (fun p => p.1 != 0)).map (fun p => (p.2, p.1))

/-- Eight free values as a bundle. -/
def freeBundle (d : Dev) : BitVec 512 × Dev :=
  (List.range 8).foldl (fun (a : BitVec 512 × Dev) i =>
    let (x, d) := drawFree a.2
    (setField a.1 (64 * i) 64 x.toNat, d)) (0, d)

/-- The code image, read once; what a bundle holds that reads as poison is not stated, and is a free value. -/
def readImage (pa n : Nat) (s : State) : List (BitVec 512) × State :=
  (List.range n).foldl (fun (a : List (BitVec 512) × State) i =>
    let (st, b, s) := readGran a.2 (pa + 64 * i)
    if st = .ok then (a.1 ++ [BitVec.ofNat 512 (leNat b)], s)
    else
      let (x, d) := freeBundle s.dev
      (a.1 ++ [x], { s with dev := d })) (([] : List (BitVec 512)), s)

/-- The store of a landing at a kernel start: as the last kernel left it where that ran under the same context ID and
generation, otherwise cold, and counted where it was not cold already (R101, R208). -/
def coldAtStart (cw l : Nat) (s : State) : State :=
  if (lndGet s.dev l).kern.last = some cw ∨ storeWarm s.mem l = false then s
  else onDev (cntInc (memBase + 0x4B8)) (coldStore l s)

/-- A landing at kernel entry (R101). -/
def entryLanding (k : LKern) (entry : Nat) (img : Sparse (BitVec 512)) (x : Landing) : Landing :=
  { x with
    phase := .running
    regs := { LRegs.empty with
      s := spPut 0 1 k.param (spPut 0 2 (BitVec.ofNat 64 k.rank) (spPut 0 3 (BitVec.ofNat 64 k.nland) [])) }
    pipe := { Landing.reset.pipe with pc := entry }
    kern := k
    trk := []
    imem := img }

/-- A landing that goes on to another kernel leaves its exit code with the one it has ended (R102). -/
def leaveRun (l : Nat) (d : Dev) : Dev :=
  let x := lndGet d l
  { d with hif := { d.hif with rings := d.hif.rings.map (fun e =>
      (e.1, { e.2 with run := e.2.run.map (fun k =>
        if k.landings.contains l then
          { k with landings := k.landings.filter (fun m => m != l), left := snoc k.left (x.kern.rank, x.kern.exitCode) }
        else k) })) } }

/-- A kernel's start: stores cold where R208 makes them, the image in every landing of the set, and their state. -/
def launchKernel (slot ring : Nat) (x : LDesc) (lands : List Nat) (s : State) : State :=
  let cw := ctxWord s.dev slot
  let s := lands.foldl (fun s l => coldAtStart cw l s) s
  let (img, s) := match xlateRange s slot (lAddr0 x.desc) (lLen x.desc) false with
    | (.ok (pa, _), s) => readImage pa (lLen x.desc / 64) s
    | (.error _, s) => ([], s)
  let m := imageOf img
  let d := lands.foldl (fun d l => leaveRun l d) s.dev
  let d := (lands.zipIdx).foldl (fun d p =>
    let k : LKern := ⟨slot, cw, seqOf ring x.idx, p.2, lands.length, BitVec.ofNat 64 (lAddr1 x.desc), 0, some cw,
      objGet d 0x605002⟩
    lndMod p.1 (entryLanding k (lEntry x.desc) m) d) d
  let d := lands.foldl (fun d l => gateIdleEnds l d)
    { d with ls := { d.ls with tileSeq := spErase (fun l => lands.contains l) d.ls.tileSeq } }
  let compared := d.ls.state == 2 && d.ls.ctx == cw / 16
  { s with dev := cntInc (hifBase + 0x410) (beginRun slot ring x lands compared d) }

/-- KERNEL_START: the last check again, then the start, or the wait for landings (R545, R546). -/
def kernelStart (slot ring : Nat) (s : State) : State :=
  match mayStart s.dev slot ring 0 with
  | none => s
  | some x =>
    let set := lSet x.desc
    let lands := set.filterMap (physOf s.dev)
    if !(setRuns s.dev set) then
      let d := beginRun slot ring x [] false s.dev
      let d := writeEntry slot ring x.idx x.desc ⟨3, 0, 0xFF, 0, 0⟩ d
      { s with dev := flushRing slot ring (ringPut slot ring { ringGet d slot ring with run := none } d) }
    else if lands.all (landingIdle s.dev) && !(reservedBefore s.dev x.ready set) then launchKernel slot ring x lands s
    else s

/-- A marker completes as soon as it starts (R546 rule 4). -/
def markerRun (slot ring : Nat) (d : Dev) : Dev :=
  match mayStart d slot ring 3 with
  | none => d
  | some x =>
    let d := beginRun slot ring x [] false d
    match (ringGet d slot ring).run with
    | some k => flushRing slot ring (finishRun slot ring k 0 d)
    | none => d

/-! ### Transfers (R548) -/

/-- The front of a ring starts where it is a transfer of the kind. -/
def startDma (slot ring kind : Nat) (d : Dev) : Dev :=
  match mayStart d slot ring kind with
  | some x => beginRun slot ring x [] false d
  | none => d

/-- A running transfer of a kind that still moves data. -/
def dmaRuns (d : Dev) (slot ring kind : Nat) : Option Running :=
  match (ringGet d slot ring).run with
  | some k => if lKind k.desc = kind ∧ k.moved < lLen k.desc ∧ k.failed = false ∧ k.forced = none then some k else none
  | none => none

def runPut (slot ring : Nat) (k : Running) (d : Dev) : Dev := ringPut slot ring { ringGet d slot ring with run := some k } d

/-- A transfer's host read has failed: it ends, and what it has not written is poison. -/
def dmaFail (slot ring : Nat) (k : Running) (s : State) : State :=
  dmaPoison slot k { s with dev := runPut slot ring { k with failed := true } s.dev }

/-- Host data of a transfer to the module, next in order; none starts the transfer only. -/
def dmaIn (slot ring : Nat) (r : HostRsp) (s : State) : State :=
  let s : State := { s with dev := startDma slot ring 1 s.dev }
  match dmaRuns s.dev slot ring 1 with
  | none => s
  | some k =>
    match r with
    | .data b =>
      let b := b.take (lLen k.desc - k.moved)
      let s := match xlateRange s slot (lAddr1 k.desc) (lLen k.desc) true with
        | (.ok (pa, _), s) => writeBytes (pa + k.moved) (b.map some) false (some slot) s
        | (.error _, s) => s
      { s with dev := runPut slot ring { k with moved := k.moved + b.length } s.dev }
    | _ => dmaFail slot ring k s

/-- The data of one granule read for the host: sent as a posted write, with EP where it is poison. -/
def dmaOutGran (addr : W64) (pa n : Nat) (a : Bool × State) : Bool × State :=
  let (st, b, s) := readGran a.2 pa
  let bad := decide (st ≠ .ok)
  let data := (b.drop (pa % 64)).take n
  (a.1 || bad, { s with dev := { s.dev with hif := { s.dev.hif with out := snoc s.dev.hif.out (.write addr data bad) } } })

/-- The granules of a transfer to the host, in order. -/
def dmaOutAll (addr pa len : Nat) (s : State) : Bool × State :=
  (List.range (granCount pa len)).foldl (fun a i =>
    let g := 64 * (pa / 64 + i)
    let lo := max g pa
    let hi := min (g + 64) (pa + len)
    dmaOutGran (BitVec.ofNat 64 (addr + (lo - pa))) lo (hi - lo) a) (false, s)

/-- A transfer to the host sends all its data. -/
def dmaOut (slot ring : Nat) (s : State) : State :=
  let s : State := { s with dev := startDma slot ring 2 s.dev }
  match dmaRuns s.dev slot ring 2 with
  | none => s
  | some k =>
    match xlateRange s slot (lAddr1 k.desc) (lLen k.desc) false with
    | (.ok (pa, _), s) =>
      let (bad, s) := dmaOutAll (lAddr0 k.desc) pa (lLen k.desc) s
      { s with dev := runPut slot ring { k with moved := lLen k.desc, poison := bad } s.dev }
    | (.error _, s) => { s with dev := runPut slot ring { k with moved := lLen k.desc } s.dev }

/-- A transfer has moved its data, failed, or been ended by a reset: what it leaves unwritten is poison, then its entry
(R448, R548, R551). -/
def dmaComplete (slot ring : Nat) (s : State) : State :=
  match (ringGet s.dev slot ring).run with
  | none => s
  | some k =>
    let kind := lKind k.desc
    if (kind = 1 ∨ kind = 2) ∧ (lLen k.desc ≤ k.moved ∨ k.failed = true ∨ k.forced.isSome = true) then
      let s := if k.forced.isSome && !k.failed && decide (k.moved < lLen k.desc) then dmaPoison slot k s else s
      { s with dev := flushRing slot ring (finishRun slot ring k 0 (cntInc (hifBase + 0x418) s.dev)) }
    else s

/-- 50 ms without an answer from the host: the transfer that waits for data fails, else the descriptor fetch (R532,
R543, R548). -/
def hostTimeout (slot ring : Nat) (s : State) : State :=
  match dmaRuns s.dev slot ring 1 with
  | some k => dmaFail slot ring k s
  | none => if fetchOut s.dev slot ring then { s with dev := fetchFailed slot ring s.dev } else s

/-! ### BAR2 (R536, R537) -/

/-- The physical address of a BAR2 offset, none where the access is refused. -/
def bar2Addr (d : Dev) (off len : Nat) : Option Nat :=
  let w := spGet 0 d.hif.win (off / 2 ^ 32)
  let pa := fieldN w 47 32 * 2 ^ 32 + off % 2 ^ 32
  if off < 2 ^ 36 ∧ w.getLsbD 63 = true ∧ d.health.state ≠ .start ∧ tierDram (tierOf pa) = true ∧
      (keyOf d pa).isSome = true ∧ (keyOf d (pa + (len - 1))).isSome = true then some pa
  else none

/-- An access that BAR2 refuses. -/
def bar2Bad (d : Dev) : Dev := cntInc (hifBase + 0x438) (hifErrBit 4 d)

/-- A write through BAR2. -/
def bar2Put (off : Nat) (data : List Byte) (en : List Bool) (ep : Bool) (s : State) : State :=
  match bar2Addr s.dev off data.length with
  | none => { s with dev := bar2Bad s.dev }
  | some pa => writeBytes pa ((data.zip en).map (fun p => if p.2 then some p.1 else none)) ep none s

/-- The completions of a read, one for each granule; whether a granule was poison. -/
def bar2Grans (pa len : Nat) (s : State) : Bool × State :=
  (List.range (granCount pa len)).foldl (fun (a : Bool × State) i =>
    let g := 64 * (pa / 64 + i)
    let lo := max g pa
    let hi := min (g + 64) (pa + len)
    let (st, b, s) := readGran a.2 g
    let bad := decide (st ≠ .ok)
    (a.1 || (bad && !(pageRetired s.dev g)), { s with dev := hostReply ((b.drop (lo - g)).take (hi - lo)) bad s.dev })) (false, s)

/-- A read through BAR2. -/
def bar2Get (off len : Nat) (s : State) : State :=
  match bar2Addr s.dev off len with
  | none => { s with dev := bar2Bad (hostAbort s.dev) }
  | some pa =>
    let (bad, s) := bar2Grans pa len s
    { s with dev := cntIf bad (hifBase + 0x440) s.dev }

/-! ### The link and the power state of the function (R532, R533, R546, R556) -/

/-- The link has trained at a supported speed and width, or is down. -/
def linkChange (up : Bool) (speed : BitVec 4) (width : BitVec 5) (flit : Bool) (d : Dev) : Dev :=
  if !up then { d with hif := { d.hif with linkUp := false, speed := 0, width := 0, flit := false } }
  else if [4, 5, 6].contains speed.toNat && [1, 2, 4, 8, 16].contains width.toNat && flit == (speed == 6) then
    { d with hif := { d.hif with linkUp := true, speed := speed.toNat, width := width.toNat, flit := flit } }
  else d

/-- The function enters or leaves D3hot. -/
def d3hotPut (enter : Bool) (d : Dev) : Dev := { d with hif := { d.hif with d3hot := enter } }

/-! ### The commands -/

/-- DOORBELL (R538, R543): a write of `bytes` bytes to BAR4. -/
def execDoorbell (off bytes : Nat) (v : W32) (s : State) : Host.Outcome State Fault Refusal :=
  .next (fromHost (onDev (bar4Write off bytes v)) s)

/-- LAUNCH_FETCH_DONE (R545). -/
def execLaunchFetchDone (slot : Fin 32) (ring : Fin 8) (r : HostRsp) (s : State) : Host.Outcome State Fault Refusal :=
  .next (fromHost (fetchDone slot.val ring.val r) s)

/-- KERNEL_START (R546). -/
def execKernelStart (slot : Fin 32) (ring : Fin 8) (s : State) : Host.Outcome State Fault Refusal :=
  .next (fromHost (kernelStart slot.val ring.val) s)

/-- DMA_TO_MODULE (R548). -/
def execDmaToModule (slot : Fin 32) (ring : Fin 8) (r : HostRsp) (s : State) : Host.Outcome State Fault Refusal :=
  .next (fromHost (dmaIn slot.val ring.val r) s)

/-- DMA_TO_HOST (R548). -/
def execDmaToHost (slot : Fin 32) (ring : Fin 8) (s : State) : Host.Outcome State Fault Refusal :=
  .next (fromHost (dmaOut slot.val ring.val) s)

/-- MARKER (R546). -/
def execMarker (slot : Fin 32) (ring : Fin 8) (s : State) : Host.Outcome State Fault Refusal :=
  .next (fromHost (onDev (markerRun slot.val ring.val)) s)

/-- DMA_COMPLETE (R548, R551). -/
def execDmaComplete (slot : Fin 32) (ring : Fin 8) (s : State) : Host.Outcome State Fault Refusal :=
  .next (fromHost (dmaComplete slot.val ring.val) s)

/-- HOST_COMPLETION_TIMEOUT (R532). -/
def execHostCompletionTimeout (slot : Fin 32) (ring : Fin 8) (s : State) : Host.Outcome State Fault Refusal :=
  .next (fromHost (hostTimeout slot.val ring.val) s)

/-- BAR2_WRITE (R537). -/
def execBar2Write (off : Nat) (data : List Byte) (en : List Bool) (ep : Bool) (s : State) :
    Host.Outcome State Fault Refusal := .next (fromHost (bar2Put off data en ep) s)

/-- BAR2_READ (R537). -/
def execBar2Read (off len : Nat) (s : State) : Host.Outcome State Fault Refusal := .next (fromHost (bar2Get off len) s)

/-- D3HOT (R546, R556). -/
def execD3hot (enter : Bool) (s : State) : Host.Outcome State Fault Refusal :=
  .next (fromHost (onDev (d3hotPut enter)) s)

/-- PCIE_LINK_CHANGE (R533, R556). -/
def execPcieLinkChange (up : Bool) (speed : BitVec 4) (width : BitVec 5) (flit : Bool) (s : State) :
    Host.Outcome State Fault Refusal := .next (fromHost (onDev (linkChange up speed width flit)) s)

end Sys2Proof.Machine
end

