-- ==== Sys2Proof/Machine/Jtag.lean ====
section
/-! DEFINITION. The test access port (R570, R571, R575, R576). -/

namespace Sys2Proof.Machine

/-! ### The pins (R570) -/

/-- The levels on the digital LS pins that the module knows, from bit 6: SVC_IRQ_N, RT_PULSE, FLOW_PULSE (left 0 here),
PRSNT_N, SYS_RST_N, PERST_N, EN_MEM, EN_MAIN, PG_MEM, PG_MAIN, PWR_BRAKE_N, PWR_OFF_REQ_N, THERMTRIP_N, ALERT_N. -/
def knownPins (d : Dev) : List Bool :=
  let s := d.pwr.supply
  [!d.fw.irq, d.tim.pulseLevel, false, !d.rst.prsntLow, !d.rst.sysPinLow, !d.rst.perstLow, s.enMem, s.enMain,
   s.memRails == .on, s.mainRails == .on, !s.brakePin, !s.pwrOffReq, !s.tripLatched, !(alertOn d)]

/-- A number from bits, bit 0 first. -/
def bitsN (l : List Bool) : Nat := packElems 1 (l.map b2n)

/-- Capture of the boundary-scan register. The service port's six pins and FLOW_PULSE are driven from outside and leave no
level in the state: free values. -/
def capturePins (d : Dev) : BitVec 28 × Dev :=
  let (v, d) := drawFree d
  let n := fieldN v 5 0 + bitsN (knownPins d) * 2 ^ 6 + fieldN v 6 6 * 2 ^ 8 + d.pins.boardSlot.toNat * 2 ^ 20 +
    d.pins.trayId.toNat * 2 ^ 22
  (BitVec.ofNat 28 n, d)

/-! ### The data registers (R575, R576) -/

def jtagMod (f : Jtag → Jtag) (d : Dev) : Dev := { d with jtag := f d.jtag }

/-- The IDCODE register (R575). -/
def idcodeValue : Nat := 2 ^ 28 + 0x4B04 * 2 ^ 12 + Config.jep106.toNat * 2 + 1

/-- Power-on reset is held. -/
def porHeld (d : Dev) : Bool := d.rst.held && !d.pins.latched

/-- The AON_STATUS register (R576). -/
def aonStatusValue (d : Dev) : BitVec 96 :=
  let l := d.pins.latched
  let b (n : Nat) (v : Bool) : Nat := b2n v * 2 ^ n
  BitVec.ofNat 96 (b 87 l + (if l then d.fuses.trayId * 2 ^ 78 + d.fuses.boardSlot * 2 ^ 76 else 0) +
    d.pins.trayId.toNat * 2 ^ 70 + d.pins.boardSlot.toNat * 2 ^ 68 + b 67 (porHeld d) + b 66 (!d.rst.prsntLow) +
    b 65 (d.pwr.supply.mainRails == .on) + b 64 (d.pwr.supply.memRails == .on) + d.rst.incarnation.toNat * 2 ^ 32 +
    (rstCause d).toNat)

/-- The port works while the AON domain is powered (R571, R576). -/
def whileAon (f : Dev → Dev) (d : Dev) : Dev := if d.rst.aon then f d else d

/-- EXTEST selected: the pins are captured and, where bits are shifted in, Update-DR puts them in force. -/
def extestAct (shift : Option (BitVec 28)) (d : Dev) : Dev :=
  let (v, d) := capturePins d
  jtagMod (fun j => { j with ir := 0, dr := v.setWidth 96, bsr := shift.getD j.bsr }) d

/-- SAMPLE/PRELOAD selected: the pins are captured, and bits shifted in are held for EXTEST. -/
def sampleAct (shift : Option (BitVec 28)) (d : Dev) : Dev :=
  let (v, d) := capturePins d
  jtagMod (fun j => { j with ir := 2, dr := v.setWidth 96, bsr := shift.getD j.bsr }) d

/-- An instruction that selects the bypass register: BYPASS, and every code the table does not list. -/
def bypassCode (code : Byte) : Bool := !(code == 0x00 || code == 0x01 || code == 0x02 || code == 0x20)

/-! ### The commands -/

/-- EXTEST (R575). -/
def execExtest (shift : Option (BitVec 28)) (s : State) : Host.Outcome State Fault Refusal :=
  .next (onDev (whileAon (extestAct shift)) s)

/-- IDCODE (R575). -/
def execIdcode (s : State) : Host.Outcome State Fault Refusal :=
  .next (onDev (whileAon (jtagMod (fun j => { j with ir := 1, dr := BitVec.ofNat 96 idcodeValue }))) s)

/-- SAMPLE/PRELOAD (R575). -/
def execSamplePreload (shift : Option (BitVec 28)) (s : State) : Host.Outcome State Fault Refusal :=
  .next (onDev (whileAon (sampleAct shift)) s)

/-- AON_STATUS (R576). -/
def execAonStatus (s : State) : Host.Outcome State Fault Refusal :=
  .next (onDev (whileAon (fun d => jtagMod (fun j => { j with ir := 0x20, dr := aonStatusValue d }) d)) s)

/-- BYPASS (R576), by its own code or by one that the table does not list. -/
def execBypass (code : Byte) (s : State) : Host.Outcome State Fault Refusal :=
  .next (onDev (whileAon (fun d => if bypassCode code then jtagMod (fun j => { j with ir := code, dr := 0 }) d else d)) s)

/-- TRST_N (R575): low resets the test logic, which selects IDCODE. -/
def execTrstN (level : Bool) (s : State) : Host.Outcome State Fault Refusal :=
  .next (onDev (whileAon (fun d => if level then d else jtagMod (fun j => { j with ir := 1 }) d)) s)

end Sys2Proof.Machine
end

