-- ==== Sys2Proof/Machine/KmdRead.lean ====
section
/-! DEFINITION. The values of the dictionary's objects (R6, R59, R112, R216, R271, R313, R362, R380, R407, R428, R430,
R436, R445, R470, R471, R487, R513, R516, R530). -/

namespace Sys2Proof.Machine

/-! ### Numbers -/

/-- The sum of a counter over ports. -/
def portSum (d : Dev) (off : Nat → Nat) : Nat :=
  min (2 ^ 64 - 1) ((List.range 16).map (fun p => (cntGet d (off p)).toNat)).sum

/-- The earliest pending boundary, 0 if none; one accepted for the next boundary stands at it (R59). -/
def schedNext (d : Dev) : Nat :=
  let next := (d.tim.count.toNat / 2 ^ 20 + 1) * 2 ^ 20
  let l := d.tim.sched.map (fun a => if a.boundary = 0 then next else a.boundary)
  match l with
  | [] => 0
  | a :: t => t.foldl min a

/-- Identity, the management link, module state, reset, faults and firmware: what runs in every state. -/
def roNumA (d : Dev) (key : Nat) : Option Nat :=
  match key with
  | 0x100003 => some 0xB0
  | 0x100004 => some d.health.landingsEnabled
  | 0x100006 => some 1
  | 0x101002 => some d.kmd.plcaNode
  | 0x101005 => some ((List.range 2).map (fun k => if (spGet [] d.kmd.keys k).isEmpty then 0 else 2 ^ k)).sum
  | 0x102001 => some d.kmd.lastHb.toNat
  | 0x103001 => some d.kmd.ev.length
  | 0x103003 => some d.kmd.evNext
  | 0x600001 => some d.health.state.code
  | 0x600004 => some d.kmd.pendState
  | 0x600005 => some d.kmd.stateSince.toNat
  | 0x603002 => some (min 15 d.rst.failedStarts)
  | 0x603003 => some d.rst.incarnation.toNat
  | 0x610001 => some d.rst.phase
  | 0x610002 => some d.rst.hold
  | 0x610003 => some d.rst.failCause
  | 0x610007 => some d.health.defects.length
  | 0x61000A => some (startMs d)
  | 0x61000B => some d.rst.lastStartMs
  | 0x620001 => some d.health.degraded.toNat
  | 0x620002 => some (within24h d.tim.now d.health.coreResets).length
  | 0x620003 => some (within24h d.tim.now d.health.sysResets).length
  | 0x800001 => some d.fw.active
  | 0x800002 => some (imgVersion d.fw (slotFlash d.fw.running))
  | 0x800003 => some (imgSecurity d.fw (slotFlash d.fw.running))
  | 0x800004 => some d.fw.secFuse
  | 0x801001 => some d.fw.stState
  | 0x801002 => some d.fw.stResult
  | 0x801003 => some d.fw.stVersion.toNat
  | 0x802001 => some d.fw.trial
  | 0x802002 => some (match d.fw.confirmUntil with
      | some t => (t - d.tim.now) / 10 ^ 9
      | none => 0)
  | 0x804001 => some (imgConfig d.fw (slotFlash d.fw.running))
  | 0x804002 => some d.fw.migration
  | 0x805001 => some d.fw.fallbackCnt.toNat
  | _ => none

/-- Power, rack time, fabric, memory, the NIC and lock-step. -/
def roNumB (d : Dev) (key : Nat) : Option Nat :=
  match key with
  | 0x200001 => some d.pwr.lim.drawW
  | 0x200002 => some d.pwr.lim.limit
  | 0x200003 => some (pwrStatus d).toNat
  | 0x200005 => some d.tim.sched.length
  | 0x230007 => some (if isLive d then d.pwr.cool.leakReading else 2)
  | 0x240001 => some (b2n d.pwr.cool.sensingDegraded)
  | 0x240002 => some d.pwr.cool.sensingCause
  | 0x300001 => some d.tim.state.code
  | 0x300002 => some d.tim.count.toNat
  | 0x300003 => some ((errBoundNs d.tim).getD 0xFFFFFFFF)
  | 0x300004 => some (if d.tim.masterValid then b2n d.tim.master else 0xFF)
  | 0x300005 => some d.tim.portValid.toNat
  | 0x300006 => some ((timStatus d.tim).toNat % 2 ^ 16)
  | 0x302001 => some d.tim.sched.length
  | 0x302002 => some (schedNext d)
  | 0x400002 => some d.fuses.boardSlot
  | 0x400003 => some d.fuses.trayId
  | 0x410003 => some (b2n d.rst.topoOk)
  | 0x450003 => some (vestUsed d)
  | 0x450004 => some d.nic.insts.length
  | 0x500001 => some d.memc.stackUp.toNat
  | 0x500002 => some d.memc.stackReduced.toNat
  | 0x500004 => some (((List.range 64).map (fun b => 8 - spGet 0 d.memc.spareUsed (128 + b))).sum)
  | 0x520001 => some d.memc.retired.length
  | 0x710002 => some d.pwr.overhead.toNat
  | 0x710003 => some d.pwr.ballastE.toNat
  | 0x710004 => some d.pwr.total.toNat
  | 0xA00005 => some (lsStatus d).toNat
  | _ => none

/-- The register counter that an object repeats. -/
def cntOfObj (key : Nat) : Option Nat :=
  match key with
  | 0x240004 => some (pwrBase + 0x358)
  | 0x430001 => some (nicBase + 0x848)
  | 0x430002 => some (nicBase + 0x850)
  | 0x430003 => some (nicBase + 0x828)
  | 0x430004 => some (rtrBase + 0x20)
  | 0x430006 => some rtrBase
  | 0x430007 => some (nicBase + 0x888)
  | 0x430008 => some (nicBase + 0x890)
  | 0x430009 => some (nicBase + 0x870)
  | 0x43000A => some (nicBase + 0x860)
  | 0x43000B => some (nicBase + 0x838)
  | 0x440011 => some (rtrBase + 0x48)
  | 0x440012 => some (nicBase + 0x8A0)
  | 0x450005 => some (nicBase + 0x988)
  | 0x450006 => some (nicBase + 0x960)
  | 0x450007 => some (nicBase + 0x958)
  | 0x450008 => some (nicBase + 0x940)
  | 0x450009 => some (nicBase + 0x910)
  | 0x45000A => some (nicBase + 0x908)
  | 0x540001 => some (memBase + 0x408)
  | 0x540002 => some (memBase + 0x418)
  | 0x540003 => some (memBase + 0x428)
  | 0x540004 => some (memBase + 0x430)
  | 0x540005 => some (memBase + 0x438)
  | 0x540006 => some (memBase + 0x448)
  | 0x540007 => some (memBase + 0x4B0)
  | 0x710005 => some (pwrBase + 0x338)
  | 0x710006 => some (pwrBase + 0x348)
  | _ => none

/-- Counters: a sum over ports, a register's, or one that only the dictionary shows. -/
def roCnt (d : Dev) (key : Nat) : Nat :=
  match key with
  | 0x430005 => portSum d (fun p => rtrBase + 0x1000 + 0x100 * p + 0x10)
  | 0x44000E => portSum d (fun p => prtBase p + 0x138)
  | 0x44000F => portSum d (fun p => prtBase p + 0x140)
  | 0x440010 => portSum d (fun p => prtBase p + 0x158)
  | _ => (cntGet d ((cntOfObj key).getD (objCnt key))).toNat

/-! ### Objects of blocks in reset (R513) -/

/-- Indexes whose objects run in RECOVERY and OUT_OF_SERVICE. -/
def keptIndex (i : Nat) : Bool :=
  [0x1000, 0x1010, 0x1020, 0x1030, 0x6000, 0x6010, 0x6020, 0x6030, 0x6100, 0x6200].contains i || i / 256 == 0x80

/-- The object's block is out of reset. -/
def objLive (d : Dev) (key : Nat) : Bool := isLive d || keptIndex (key / 256) || persisted key || key == 0x411001

/-- The number a read-only object holds; a counter of a block in reset reads 0 (R513). -/
def roNum (d : Dev) (key : Nat) : Nat :=
  (roNumA d key).getD ((roNumB d key).getD (if objLive d key then roCnt d key else 0))

/-- The number a writable object holds (R266, R416, R513). -/
def rwNum (d : Dev) (key : Nat) : Nat :=
  if key = 0x400001 then d.rtr.node.toNat
  else if key = 0x603001 then (rstCause d).toNat
  else if key = 0x510011 then 0
  else if objLive d key then objGet d key
  else objDefault key

/-! ### Binary32 values -/

/-- The binary32 nearest to `n / den`. -/
def f32Ratio (n : Int) (den : Nat) : Nat :=
  let a := n.natAbs * 2 ^ 60
  let q := a / den * 2 + (if a % den = 0 then 0 else 1)
  fp32.round .nearest false ⟨if n < 0 then -(q : Int) else q, -61⟩

/-- A reading as an F32 object; one that has not been taken is a free value. -/
def f32Read (x : Option Int) (den : Nat) (d : Dev) : List Byte × Dev :=
  match x with
  | some v => (leBytes 4 (f32Ratio v den), d)
  | none =>
    let (v, d) := drawFree d
    (leBytes 4 v.toNat, d)

/-- The input's mean over the last millisecond in mV times the samples, with their number. -/
def inputMean (d : Dev) : Option (Nat × Nat) :=
  let l := d.pwr.supply.inputHist
  if l.isEmpty then none else some (l.sum, l.length)

/-- The F32 objects (R407). -/
def readF32 (d : Dev) (key : Nat) : List Byte × Dev :=
  match key with
  | 0x200004 =>
    match inputMean d with
    | some (s, n) => f32Read (some (s : Int)) (1000 * n) d
    | none => f32Read none 1 d
  | 0x230004 => f32Read d.pwr.cool.inletDc 10 d
  | 0x230005 => f32Read d.pwr.cool.outletDc 10 d
  | _ => f32Read (hottestJunction d) 10 d

/-! ### Strings and byte blocks -/

def asciiBytes (s : String) : List Byte := s.toList.map (fun c => BitVec.ofNat 8 c.toNat)

/-- The STR objects (R6, R516). -/
def readStr (d : Dev) (key : Nat) : List Byte :=
  match key with
  | 0x100001 => asciiBytes "Eobazan"
  | 0x100002 => asciiBytes (if d.fuses.grade = 96 then "EZK4-96-8S" else "EZK4-88-8S")
  | _ => d.fuses.serial

def zeros (n : Nat) : List Byte := List.replicate n 0

/-- The fuse record (R428). -/
def fuseBytes (d : Dev) : List Byte :=
  let f := d.fuses
  let l := leBytes 13 f.landingEnable.toNat ++ leBytes 1 (if f.grade = 96 then 1 else 2) ++ leBytes 2 f.galleryFull.toNat ++
    leBytes 8 f.laneBad.toNat ++ leBytes 16 f.stackChanBad.toNat ++ leBytes 2 f.mezzRepaired.toNat ++ zeros 18
  l ++ leBytes 4 (crc32 l).toNat

/-- The 16 bytes of a defect entry (R430). -/
def defectBytes (e : Defect) : List Byte :=
  leBytes 1 e.kind ++ leBytes 1 e.origin ++ leBytes 2 e.unit ++ leBytes 4 e.incarnation.toNat ++ leBytes 8 e.detail.toNat

/-- The defect list (R430). -/
def defectList (d : Dev) : List Byte :=
  let h := d.health
  let head := leBytes 4 0x4C445A45 ++ leBytes 2 1 ++ leBytes 2 h.defects.length ++ leBytes 8 h.defectSeq.toNat ++
    leBytes 4 h.defectInc.toNat ++ zeros 40
  let es := (h.defects.map defectBytes).flatten
  head ++ leBytes 4 (crc32 (head ++ es)).toNat ++ es

/-- scrub_report (R470). -/
def reportBytes (r : ScrubReport) : List Byte :=
  leBytes 2 r.ctx ++ leBytes 1 r.result ++ leBytes 1 r.quality ++ leBytes 4 r.items ++ leBytes 4 r.unwritten ++
    leBytes 4 r.kernels ++ leBytes 8 r.accepted.toNat ++ leBytes 8 r.completed.toNat ++ leBytes 8 r.zeroBytes

/-- Per context slot: SR_CTX, and a 64-bit number (R407, R487). -/
def slotTable (d : Dev) (f : Nat → Nat) : List Byte :=
  ((List.range 32).map (fun n => leBytes 2 (ctxWord d n) ++ zeros 6 ++ leBytes 8 (f n))).flatten

/-- slot_info: version, security version and verify result of both slots (R530). -/
def slotInfo (d : Dev) : List Byte :=
  ((List.range 2).map (fun n => leBytes 4 (imgVersion d.fw (slotFlash n)) ++ leBytes 1 (imgSecurity d.fw (slotFlash n)) ++
    leBytes 1 (imageVerify d.fw (slotFlash n)) ++ zeros 2)).flatten

/-- ls_result (R487). -/
def lsResult (d : Dev) : List Byte :=
  leBytes 4 d.ls.kernel.toNat ++ leBytes 4 (lsWhere d).toNat ++ leBytes 4 d.ls.seq.toNat ++ leBytes 8 d.ls.va.toNat ++
    leBytes 8 d.ls.own.toNat ++ leBytes 8 d.ls.theirs.toNat

/-- The default of expected_ports (R437). -/
def expectedDefault : List Byte := (List.replicate 16 ([0, 0, 0xFF, 0xFF, 0xFF, 0, 0, 0] : List Byte)).flatten

/-- BLOB objects that are read only. -/
def roBlob (d : Dev) (key : Nat) : List Byte :=
  match key with
  | 0x101003 => beBytes 6 d.kmd.mac.toNat
  | 0x101004 => beBytes 6 ((d.kmd.ctlMac.map BitVec.toNat).getD 0)
  | 0x103002 => ((d.kmd.ev.map EvRec.bytes).flatten ++ zeros 2048).take 2048
  | 0x212002 => (ffTable.map (fun r => leBytes 2 r.1 ++ leBytes 2 r.2.1 ++ leBytes 2 r.2.2)).flatten
  | 0x410002 => if isLive d then blobGet d key (List.replicate 16 8) else List.replicate 16 8
  | 0x411004 => ((List.range 16).map (fun p => leBytes 4 (spGet 0 d.health.portAdmitted p).toNat)).flatten
  | 0x44000A => (List.range 16).map (fun p => (portGet d p).retired.setWidth 8)
  | 0x44000C => ((List.range 16).map (fun p => leBytes 4 (prtStatus d p).toNat)).flatten
  | 0x44000D => ((List.range 16).map (fun p => match (portGet d p).ident with
      | some i => leBytes 16 (identBlock i).toNat
      | none => zeros 16)).flatten
  | 0x500003 => (List.range 8).map (fun s => BitVec.ofNat 8 (stackCap d s / 2 ^ 30))
  | 0x520002 => (d.memc.retired.map (fun p => leBytes 8 p)).flatten
  | 0x610004 => fuseBytes d
  | 0x610005 => (List.range 104).map (fun l => BitVec.ofNat 8 (logicalOf d l))
  | 0x610006 => (List.range 104).map (fun l => BitVec.ofNat 8 (landStateOf d l))
  | 0x610008 => defectList d
  | 0x620006 => reportBytes d.health.report
  | 0x620007 => leBytes 13 d.health.retirePending.toNat
  | 0x700002 => if isLive d && !d.kmd.telemetry.isEmpty then d.kmd.telemetry else zeros 64
  | 0x710001 => slotTable d (fun n => (spGet 0 d.pwr.ctxEnergy n).toNat)
  | 0x720001 => slotTable d (fun n => if isLive d then (cntGet d (nicBase + 0x2000 + 0x40 * n)).toNat else 0)
  | 0x800005 => slotInfo d
  | 0xA00006 => lsResult d
  | _ => []

/-- The default of a writable BLOB. -/
def blobDefault (key : Nat) : List Byte :=
  match key with
  | 0x410001 => expectedDefault
  | 0x420002 => zeros 10
  | 0x420004 => zeros 4096
  | 0x420006 => zeros 4
  | 0x440002 => List.replicate 16 4
  | 0x440004 => zeros 512
  | _ => []

/-- BLOB objects. -/
def readBlob (d : Dev) (r : ObjRow) : List Byte :=
  if r.key = 0x420001 then ((List.range 4096).map (fun n => leBytes 8 (spGet 0 d.rtr.table n).toNat)).flatten
  else if r.acc = .rw then (if objLive d r.key then blobGet d r.key (blobDefault r.key) else blobDefault r.key)
  else roBlob d r.key

/-- The bytes of an object's value; a value the module has not got is a free value. -/
def readObj (r : ObjRow) (d : Dev) : List Byte × Dev :=
  match r.ty with
  | 6 => readF32 d r.key
  | 7 => (readStr d r.key, d)
  | 8 => (readBlob d r, d)
  | _ => (leBytes (typeBytes r.ty) (if r.acc = .rw then rwNum d r.key else roNum d r.key), d)

end Sys2Proof.Machine
end

