-- ==== Sys2Proof/Machine/KmdWrite.lean ====
section
/-! DEFINITION. Writes of the dictionary's objects: the checks in the order of R17, and what an accepted write does
(R17, R50, R178, R251, R381, R414, R437, R453, R464, R465, R484, R497, R500, R509, R511 to R513, R582). -/

namespace Sys2Proof.Machine

/-! ### Values an object takes (R582) -/

/-- Bytes of a writable BLOB. -/
def blobSize (key : Nat) : Nat :=
  match key with
  | 0x410001 => 128
  | 0x411003 => 12
  | 0x420001 => 32768
  | 0x420002 => 10
  | 0x420004 => 4096
  | 0x420006 => 4
  | 0x440002 => 16
  | 0x440004 => 512
  | _ => 0

/-- The ranges of the writable objects that state one, key, lowest and highest value. -/
def objRanges : List (Nat × Nat × Nat) :=
  [(0x101001, 0x0600, 0xFFFF), (0x301001, 1, 1000), (0x301002, 8, 1000), (0x301003, 1, 1), (0x301004, 0, 0x3F),
   (0x301005, 0, 1), (0x605001, 0, 1), (0x605002, 16, 27), (0x510011, 1, 1), (0x530001, 0, 1), (0x530002, 0, 1000000),
   (0x530003, 1, 168), (0x400001, 0, 4094), (0x420003, 0, 8), (0x420005, 0, 7), (0x420007, 64, 4096)] ++
  [(0x440005, 0, 7), (0x440006, 100, 60000), (0x440007, 1, 1000000), (0x440008, 1, 100000), (0x440009, 0, 15),
   (0x450001, 200, 100000), (0x210001, 1, 10), (0x210002, 450, 3000), (0x210003, 200, 2100), (0x210004, 200, 2100),
   (0x210005, 10, 100), (0x210006, 10, 100), (0x211001, 0, 1), (0x220001, 0, 3000), (0x220002, 0, 3000)] ++
  [(0x230001, 85, 100), (0x230002, 0, 20000), (0x230003, 0, 1), (0x240003, 1, 1), (0x601001, 0, 1),
   (0x601002, 600, 3600), (0x601003, 0, 2), (0x601004, 0, 2), (0x602001, 1, 1), (0x602002, 1, 1), (0x620004, 1, 1),
   (0x620005, 0, 1), (0x604001, 0, 1), (0x604002, 1024, 65536), (0xA00002, 0, 4095), (0xA00004, 1, 1),
   (0x600003, 100, 600000), (0x700001, 0, 1), (0x803001, 1, 1)]

/-- The value lies in the object's range, if it states one. -/
def inRange (key v : Nat) : Bool :=
  match objRanges.find? (fun r => r.1 == key) with
  | some r => decide (r.2.1 ≤ v ∧ v ≤ r.2.2)
  | none => true

/-- EtherTypes that 0x1010.01 does not take (R516). -/
def ethReserved : List Nat := [0x0800, 0x0806, 0x8100, 0x86DD, 0x88A8]

/-- A staged interleave region. -/
def regionKey (key : Nat) : Bool := decide (0x510001 ≤ key ∧ key ≤ 0x510010)

/-- The regions as staged (R178). -/
def stagedRegions (d : Dev) : List W64 := (List.range 16).map (fun i => BitVec.ofNat 64 (objGet d (0x510001 + i)))

/-- A route entry may stand for a node (R247, R251). -/
def routeEntryOk (own : Bool) (e : W64) : Bool :=
  let out0 := fieldN e 61 57
  let out1 := fieldN e 56 52
  let expOut := fieldN e 50 46
  fieldN e 44 16 == 0 &&
    (if own then
      e.getLsbD 63 && out0 == 18 && !(e.getLsbD 51) && decide (out1 ≤ 15) &&
        (if e.getLsbD 45 then expOut == 18 else decide (expOut ≤ 15 ∨ expOut = 18))
    else
      decide (out0 ≤ 15 ∧ out1 ≤ 15 ∧ expOut ≤ 15) && !(e.getLsbD 51 && out1 == out0))

/-- Entry `n` of a route table's bytes. -/
def tableEntry (l : List Byte) (n : Nat) : W64 := BitVec.ofNat 64 (leNat ((l.drop (8 * n)).take 8))

/-- The entries of a route table's bytes. -/
def tableEntries : List Byte → List W64
  | a :: b :: c :: e :: f :: g :: h :: i :: t => BitVec.ofNat 64 (leNat [a, b, c, e, f, g, h, i]) :: tableEntries t
  | _ => []

/-- An entry of expected_ports (R437). -/
def expectedOk (e : List Byte) : Bool :=
  let kind := leNat (e.take 1)
  let req := leNat ((e.drop 1).take 1)
  let node := leNat ((e.drop 2).take 2)
  decide (kind ≤ 5 ∧ req ≤ 1) && !(req == 1 && kind == 1) && (decide (node ≤ 4094) || node == 0xFFFF) &&
    leNat (e.drop 5) == 0

/-- The value of a BLOB object is one that its row defines. -/
def blobOk (key : Nat) (b : List Byte) (d : Dev) : Bool :=
  let own := d.rtr.node.toNat
  match key with
  | 0x410001 => (List.range 16).all (fun p => expectedOk ((b.drop (8 * p)).take 8))
  | 0x411003 =>
    decide (leNat (b.take 1) ≤ 15) && leNat ((b.drop 1).take 3) == 0 && leNat (b.drop 8) == objGet d 0x411001
  | 0x420001 => ((tableEntries b).zipIdx).all (fun p => routeEntryOk (p.2 == own) p.1)
  | 0x420002 => decide (leNat (b.take 2) ≤ 4094) && routeEntryOk (leNat (b.take 2) == own) (BitVec.ofNat 64 (leNat (b.drop 2)))
  | 0x420004 => b.all (fun x => decide (x.toNat ≤ 16))
  | 0x420006 => b.all (fun x => decide (x.toNat ≤ 15))
  | 0x440002 => b.all (fun x => decide (1 ≤ x.toNat ∧ x.toNat ≤ 4))
  | _ => true

/-- The entry that defect_remove names may be removed (R431). -/
def removable (d : Dev) (n : Nat) : Bool :=
  match d.health.defects[n]? with
  | some e => e.kind == 1 || e.kind == 3
  | none => false

/-- The value of a scalar object is one that its row defines. -/
def scalarOk (key v : Nat) (d : Dev) : Bool :=
  inRange key v && (
    match key with
    | 0x101001 => !(ethReserved.contains v)
    | 0x530002 => v == 0 || decide (10 ≤ v)
    | 0x220002 => v == 0 || decide (50 ≤ v)
    | 0x212001 => ffValue v
    | 0xA00001 => decide (v ≤ 4094) || v == 0xFFFF
    | 0x510011 => ilvSetOk d (stagedRegions d)
    | 0x44000B => v / 4096 == 0 && v / 16 % 16 == 0
    | 0x602003 => decide (v < 4096) && (slotOfId d v).isSome
    | 0x610009 => removable d v
    | 0x411001 => v != 0 && decide (objGet d 0x411001 ≤ v)
    | 0x411002 => v != 0 && v == objGet d 0x411001
    | 0x600002 => [2, 4, 5].contains v
    | _ => if regionKey key then v % 2 ^ 29 / 2 == 0 else true)

/-! ### Conditions on the state (R511, R512) -/

/-- Every memory engine is idle (R178, R509). -/
def enginesIdle (d : Dev) : Bool :=
  d.memc.strQ.isEmpty && d.memc.strRun.isEmpty && d.memc.upkQ.isEmpty && d.memc.upkRun.isEmpty

/-- Every top-k engine is idle. -/
def topkIdle (d : Dev) : Bool := d.memc.topQ.isEmpty && d.memc.topRun.isEmpty

/-- A state request is allowed in the present state (R509). -/
def requestAllowed (v : Nat) (m : MState) : Bool :=
  match m with
  | .ready => v == 4
  | .degraded => v == 4
  | .quiesced => v == 5 || v == 2
  | .maint => v == 4 || v == 2
  | _ => false

/-- A comparison may be scheduled: none is scheduled or running, and none holds a freeze (R484, R485; log entry 63). -/
def lsReady (d : Dev) : Bool :=
  let partner := objGet d 0xA00001
  let repro := match slotOfId d (objGet d 0xA00002) with
    | some n => d.nic.repro.getLsbD n
    | none => false
  repro && decide (0 < ((blobGet d 0x420004 (zeros 4096))[partner]?.getD 0).toNat) && !(decide (1 ≤ d.ls.state ∧ d.ls.state ≤ 3))

/-- The scheduled action that a write of an object asks for (R50). -/
def schedOf (key v eff : Nat) (d : Dev) : Option Sched :=
  match key with
  | 0x210002 => some ⟨eff, .cap v⟩
  | 0x212001 => some ⟨eff, .ff v⟩
  | 0xA00003 => some ⟨v, .lsStart (objGet d 0xA00001) (objGet d 0xA00002)⟩
  | _ => none

/-- The abort that R50 gives a write, 0 for objects that schedule nothing. -/
def schedCode (key v eff : Nat) (d : Dev) : Nat :=
  match schedOf key v eff d with
  | some a => schedAbort a d
  | none => 0

/-- The condition that an object's row adds to its States column (R511). -/
def condOk (key v eff : Nat) (d : Dev) : Bool :=
  schedCode key v eff d != 6 && (
    match key with
    | 0x301001 => d.tim.state != .holdover
    | 0x301003 => d.tim.backwardHold
    | 0x440009 => decide (15 < v) || (portRetrainAct v d).isSome
    | 0x510011 => enginesIdle d
    | 0x210002 => !(ffConflict (schedAdd ⟨eff, .cap v⟩ d))
    | 0x212001 => !(ffValue v) || !(ffConflict (schedAdd ⟨eff, .ff v⟩ d))
    | 0x210003 => !(ffConflict (objPut key v d))
    | 0x210004 => !(ffConflict (objPut key v d))
    | 0x220001 => !(ffConflict (objPut key v d))
    | 0x220002 => !(ffConflict (objPut key v d))
    | 0x240003 => (sensingClear d).isSome
    | 0x411002 => d.rst.hold == 2
    | 0xA00003 => lsReady d
    | 0x600002 => !([2, 4, 5].contains v) || requestAllowed v d.health.state
    | 0x803001 => d.fw.trial == 1 && d.fw.confirmUntil.isSome
    | _ => true)

/-- The object may be written in the present state (R511, R512). -/
def stateListed (r : ObjRow) (d : Dev) : Bool := (BitVec.ofNat 8 r.states).getLsbD d.health.state.code

/-- The busy reason of R498 that refuses a write, 0 for none. -/
def busyReason (key v eff : Nat) (d : Dev) : Nat :=
  if schedCode key v eff d = 7 then 3
  else if (key = 0x602002 ∨ key = 0x602003) ∧ recoveryBusy d = true then 5
  else if key = 0x600002 ∧ d.kmd.pendState ≠ 0 then 6
  else 0

/-! ### The abort of a write (R17, R497, R499, R500) -/

/-- A request to write a value: key, type code, effective-at, value, and whether it came by WRITE_BLOCK. -/
structure WReq where
  key : Nat
  ty : Nat
  eff : Nat
  val : List Byte
  block : Bool
  deriving DecidableEq, Repr

/-- Objects larger than 1,024 bytes are written by WRITE_BLOCK alone (R497). -/
def largeObj (key : Nat) : Bool := decide (1024 < blobSize key)

/-- The value's length fits the object's type. -/
def lengthOk (r : ObjRow) (w : WReq) : Bool :=
  if r.ty = 8 then w.val.length == blobSize r.key || (largeObj r.key && !w.block)
  else w.val.length == typeBytes r.ty

/-- The value is one that the object's row defines (R582). -/
def valueOk (r : ObjRow) (w : WReq) (d : Dev) : Bool :=
  if r.ty = 8 then blobOk r.key w.val d else scalarOk r.key (leNat w.val) d

/-- The abort code of a write with its busy reason, 0 and 0 where it is accepted: the first of R17. -/
def writeAbort (w : WReq) (d : Dev) : Nat × Nat :=
  match objRow w.key with
  | none => (if objIndex (w.key / 256) then 2 else 1, 0)
  | some r =>
    let v := leNat w.val
    let sched := schedCode r.key v w.eff d
    if r.acc = .ro then (5, 0)
    else if w.ty ≠ r.ty ∨ lengthOk r w = false then (3, 0)
    else if stateListed r d = false ∨ condOk r.key v w.eff d = false then (6, 0)
    else if (largeObj r.key = true ∧ w.block = false) ∨ (w.eff ≠ 0 ∧ r.key ≠ 0x210002 ∧ r.key ≠ 0x212001) ∨
        valueOk r w d = false ∨ sched = 4 then (4, 0)
    else if sched = 9 then (9, 0)
    else if busyReason r.key v w.eff d ≠ 0 then (7, busyReason r.key v w.eff d)
    else (0, 0)

/-! ### What an accepted write does -/

/-- A state request (R509). -/
def stateRequest (v : Nat) (d : Dev) : Dev :=
  if v = 4 then
    (if isUp d then { d with kmd := { d.kmd with pendState := 4, pendSince := d.tim.now } } else setState .quiesced d)
  else if v = 5 then setState .maint d
  else setState (if d.health.degraded = 0 then .ready else .degraded) d

/-- Admission (R425, R427, R439, R464, R467, R508). -/
def admission (d : Dev) : Dev :=
  let ms := startMs d
  let d := { d with
    rst := { d.rst with failedStarts := 0, lastStartMs := ms, startMs := some ms }
    health := { d.health with trained := true }
    kmd := { d.kmd with hbAt := d.tim.now } }
  let d := setState (if d.health.degraded = 0 then .ready else .degraded) (setPhase 8 0 d)
  fwReady (expAtReady (admitPorts d))

/-- The start of a comparison is accepted: its registers are cleared and the start waits for its boundary (R484 to
R486). -/
def lsSchedule (b : Nat) (d : Dev) : Dev :=
  let partner := objGet d 0xA00001
  let ctx := objGet d 0xA00002
  let d := cntClear (dbgBase + 0x140) (dbgBase + 0x158) d
  let d := { d with ls := { LockStep.reset with state := 1, partner := partner, ctx := ctx, tileSeq := d.ls.tileSeq } }
  emit 0xA001 0 1 (schedAdd ⟨b, .lsStart partner ctx⟩ d)

/-- ls_stop (R485). -/
def lsStopAct (d : Dev) : Dev :=
  if d.ls.state = 1 ∨ d.ls.state = 2 then
    lsEnd 5 { d with tim := { d.tim with sched := d.tim.sched.filter (fun a => !(schedIsLs a)) } }
  else d

/-- oos_clear: the mark and both counts go (R453). -/
def oosClearAct (d : Dev) : Dev :=
  { d with health := { d.health with oosMark := false, coreResets := [], sysResets := [] } }

/-- An entry leaves the defect list; it takes effect at the next start (R431, R445). -/
def defectDrop (n : Nat) (d : Dev) : Dev :=
  { d with health := { d.health with
      defects := d.health.defects.eraseIdx n, defectSeq := d.health.defectSeq + 1, defectInc := d.rst.incarnation } }

/-- pulse_enable: 0 ignores RT_PULSE, so nothing is held to it any longer (R42, R59). -/
def pulseEnable (v : Nat) (d : Dev) : Dev :=
  if v = 0 ∧ d.tim.pulseHeld = true then timChange (fun t => { t with pulseHeld := false }) d else d

/-- Effects of scalar objects on blocks that run, beside the value stored. -/
def scalarAct (key v eff : Nat) (d : Dev) : Dev :=
  match key with
  | 0x301003 => backwardStep d
  | 0x301005 => pulseEnable v d
  | 0x510011 => { d with memc := { d.memc with ilv := stagedRegions d } }
  | 0x530001 => if v = 0 then { d with memc := { d.memc with srf := [] } } else d
  | 0x400001 => { d with rtr := { d.rtr with node := BitVec.ofNat 12 v } }
  | 0x440001 => portEnableAct v d
  | 0x440009 => (portRetrainAct v d).getD d
  | 0x44000B => laneUnretireAct (v / 256 % 16) (BitVec.ofNat 4 v) d
  | 0x210002 => schedAdd ⟨eff, .cap v⟩ d
  | 0x212001 => schedAdd ⟨eff, .ff v⟩ d
  | 0x230002 => coolMod (fun c => { c with flowWritten := some d.tim.now }) d
  | 0x240003 => pwrChange (fun d => (sensingClear d).getD d) d
  | 0x602003 =>
    match slotOfId d v with
    | some n => scrubBegin n false d
    | none => d
  | 0x603001 => { d with rst := { d.rst with cause := d.rst.cause &&& ~~~(BitVec.ofNat 14 v) } }
  | 0x610009 => defectDrop v d
  | 0x411002 => admission d
  | 0xA00003 => lsSchedule v d
  | 0xA00004 => lsStopAct d
  | 0x600002 => stateRequest v d
  | 0x803001 => fwConfirm d
  | _ => d

/-- Objects whose write stores nothing by itself: those that act, and those that a scheduled action sets. -/
def storesNothing (r : ObjRow) : Bool :=
  r.acc == .wo || [0x603001, 0x400001, 0x510011, 0x210002, 0x212001].contains r.key

/-- An accepted write of a scalar object. -/
def scalarWrite (r : ObjRow) (v eff : Nat) (d : Dev) : Dev :=
  let d := if r.key = 0x530002 then keepGateSettings d else d
  let d' := if storesNothing r then d else objPut r.key v d
  if objLive d r.key then scalarAct r.key v eff d' else d'

/-- The routing table replaced (R248). -/
def tableLoad (b : List Byte) (d : Dev) : Dev :=
  { d with rtr := { d.rtr with
      table := ((tableEntries b).zipIdx).filterMap (fun p => if p.1 = 0 then none else some (p.2, p.1)) } }

/-- One entry replaced (R248). -/
def tablePatch (b : List Byte) (d : Dev) : Dev :=
  { d with rtr := { d.rtr with
      table := spPut 0 (leNat (b.take 2)) (BitVec.ofNat 64 (leNat (b.drop 2))) d.rtr.table } }

/-- An accepted write of a BLOB object. -/
def blobWrite (key : Nat) (b : List Byte) (d : Dev) : Dev :=
  if !(objLive d key) then (if key = 0x411003 ∨ key = 0x420001 then d else blobPut key b d)
  else
    match key with
    | 0x420001 => tableLoad b d
    | 0x420002 => tablePatch b (blobPut key b d)
    | 0x411003 => portAdmitAct (leNat (b.take 1)) (BitVec.ofNat 32 (leNat ((b.drop 4).take 4))) d
    | 0x410001 =>
      let d := topoAgain (blobPut key b d)
      if isLive d then setDegraded 0 (portReduced d) d else d
    | _ => blobPut key b d

/-- An accepted write: resets and scrubs follow the answer (R414). -/
def writeAct (w : WReq) (s : State) : State :=
  let v := leNat w.val
  match objRow w.key with
  | none => s
  | some r =>
    if r.ty = 8 then { s with dev := blobWrite r.key w.val s.dev }
    else if r.key = 0x602001 then
      let trial := s.dev.health.state == .recovery
      sysResetFrom 3 true { s with dev := { s.dev with rst := { s.dev.rst with trial := trial } } }
    else if r.key = 0x602002 then coreReset 4 s
    else if r.key = 0x620004 then sysReset false { s with dev := oosClearAct s.dev }
    else if r.key = 0x440001 ∨ r.key = 0x440009 then afterExit { s with dev := scalarWrite r v w.eff s.dev }
    else { s with dev := scalarWrite r v w.eff s.dev }

end Sys2Proof.Machine
end

