-- ==== Sys2Proof/Machine/Kmd.lean ====
section
/-! DEFINITION. The management link: frames, their authentication, requests and answers, block transfers, heartbeats,
telemetry, and the timers of management (R467, R488 to R510). -/

namespace Sys2Proof.Machine

/-! ### Fields of requests (R497, R501) -/

/-- Bytes `i` to `i + n - 1` of a body, as a number. -/
def bodyN (f : Frame) (i n : Nat) : Nat := leNat ((f.body.drop i).take n)

/-- The object a request names, as 256 times its index plus its subindex; a heartbeat names none. -/
def frameKey (f : Frame) : Nat := if f.mtype = 6 then 0 else bodyN f 0 2 * 256 + bodyN f 2 1

/-- Message types that a controller sends (R492). -/
def requestType (t : BitVec 8) : Bool := t == 1 || t == 2 || t == 3 || t == 4 || t == 6

/-- The body has the length of its layout (R497, R501). -/
def bodyFits (f : Frame) : Bool :=
  let n := f.body.length
  if f.mtype = 1 then n == 4
  else if f.mtype = 2 then decide (16 ≤ n) && n == 16 + bodyN f 12 4
  else if f.mtype = 3 then n == 12
  else if f.mtype = 4 then decide (16 ≤ n) && n == 16 + bodyN f 12 2
  else n == 8

/-- The frame passes R491. -/
def frameOk (f : Frame) : Bool :=
  f.version == 1 && requestType f.mtype && f.rsv3 == 0 && f.rsv20 == 0 && decide (f.keyId.toNat ≤ 1) &&
    f.bodyLen.toNat == f.body.length && decide (f.body.length ≤ 1100) && bodyFits f

/-! ### Authentication (R493, R494) -/

/-- The bytes the tag covers. -/
def frameBytes (f : Frame) : List Byte :=
  beBytes 6 f.dstMac.toNat ++ beBytes 6 f.srcMac.toNat ++ beBytes 2 f.etype.toNat ++
    leBytes 1 f.version.toNat ++ leBytes 1 f.mtype.toNat ++ leBytes 1 f.keyId.toNat ++ leBytes 1 f.rsv3.toNat ++
    leBytes 4 f.incarnation.toNat ++ leBytes 8 f.counter.toNat ++ leBytes 2 f.reqId.toNat ++ leBytes 2 f.bodyLen.toNat ++
    leBytes 4 f.rsv20.toNat ++ f.body

/-- The frame is authentic. -/
def frameAuth (f : Frame) (d : Dev) : Bool :=
  let key := spGet [] d.kmd.keys f.keyId.toNat
  !(key.isEmpty) && (hmacSha256 key (frameBytes f)).take 16 == leBytes 16 f.tag.toNat &&
    f.incarnation == d.rst.incarnation && decide (d.kmd.lastCtr.toNat < f.counter.toNat)

/-! ### Answers (R498) -/

/-- A response body. -/
def respBody (abort ty key : Nat) (detail val : List Byte) : List Byte :=
  leBytes 1 abort ++ leBytes 1 ty ++ leBytes 2 (key / 256) ++ leBytes 1 (key % 256) ++ zeros 3 ++
    (detail ++ zeros 8).take 8 ++ leBytes 4 val.length ++ val

/-- The detail of an abort. -/
def abortDetail (code reason : Nat) (d : Dev) : List Byte :=
  match code with
  | 6 => leBytes 1 d.health.state.code ++ leBytes 1 d.tim.state.code
  | 7 => leBytes 1 reason
  | 8 => leBytes 4 d.rst.incarnation.toNat ++ leBytes 4 (d.kmd.lastCtr.toNat % 2 ^ 32)
  | 9 => leBytes 8 d.tim.count.toNat
  | _ => []

/-- The type code of an object, 0 for none. -/
def tyOf (key : Nat) : Nat :=
  match objRow key with
  | some r => r.ty
  | none => 0

/-- An answer without a value: success, or an abort with its detail. -/
def plainAnswer (code reason key : Nat) (d : Dev) : List Byte := respBody code (tyOf key) key (abortDetail code reason d) []

/-- The answer to a frame leaves, under the key slot of the request (R494). -/
def answerFrame (f : Frame) (body : List Byte) (d : Dev) : Dev :=
  sendFrame f.srcMac (f.mtype.toNat + 0x80) f.keyId.toNat f.reqId.toNat body d

/-- The answer is kept with the last 16 (R495). -/
def keepAnswer (f : Frame) (body : List Byte) (d : Dev) : Dev :=
  let l := snoc d.kmd.answers ⟨f.reqId, f.mtype.toNat, frameKey f / 256, frameKey f % 256, body⟩
  { d with kmd := { d.kmd with answers := l.drop (l.length - 16) } }

/-- The answer kept for a request that is sent again. -/
def keptAnswer (f : Frame) (d : Dev) : Option (List Byte) :=
  (d.kmd.answers.find? (fun a => a.reqId == f.reqId && a.mtype == f.mtype.toNat && a.idx == frameKey f / 256 &&
    a.sub == frameKey f % 256)).map KmdAns.body

/-! ### READ and READ_BLOCK (R497 to R499) -/

/-- The abort of a read before the object's size is known, 0 for none. -/
def readAbort (key : Nat) : Nat :=
  match objRow key with
  | none => if objIndex (key / 256) then 2 else 1
  | some r => if r.acc = .wo then 5 else 0

/-- The answer to a READ. -/
def answerRead (key : Nat) (d : Dev) : List Byte × Dev :=
  match objRow key with
  | none => (plainAnswer (readAbort key) 0 key d, d)
  | some r =>
    if readAbort key ≠ 0 then (plainAnswer (readAbort key) 0 key d, d)
    else
      let (v, d') := readObj r d
      if 1024 < v.length then (plainAnswer 4 0 key d, d) else (respBody 0 r.ty key [] v, d')

/-- The answer to a READ_BLOCK. -/
def answerReadBlock (key off len : Nat) (d : Dev) : List Byte × Dev :=
  match objRow key with
  | none => (plainAnswer (readAbort key) 0 key d, d)
  | some r =>
    if readAbort key ≠ 0 then (plainAnswer (readAbort key) 0 key d, d)
    else
      let (v, d') := readObj r d
      if len = 0 ∨ 1024 < len ∨ v.length < off + len then (plainAnswer 4 0 key d, d)
      else (respBody 0 r.ty key (leBytes 8 v.length) ((v.drop off).take len), d')

/-! ### WRITE and WRITE_BLOCK (R497, R499) -/

/-- The write that a WRITE asks for. -/
def writeReq (f : Frame) : WReq := ⟨frameKey f, bodyN f 3 1, bodyN f 4 8, f.body.drop 16, false⟩

/-- A refusal for 0x09 is counted (R50). -/
def countPassed (code : Nat) (d : Dev) : Dev := cntIf (code == 9) (objCnt 0x303009) d

/-- The answer to a WRITE. -/
def answerWrite (f : Frame) (d : Dev) : List Byte × Dev :=
  let (code, why) := writeAbort (writeReq f) d
  (plainAnswer code why (frameKey f) d, countPassed code d)

/-- A WRITE_BLOCK segment may begin or continue a transfer: the bytes held before it, none where it may not. -/
def blockSoFar (key off total len : Nat) (d : Dev) : Option (List Byte) :=
  if len = 0 ∨ 1024 < len ∨ total < off + len then none
  else
    match d.kmd.xfer with
    | none => if off = 0 ∧ total = blobSize key then some [] else none
    | some x => if off = x.data.length ∧ total = x.total then some x.data else none

/-- The whole value that the last segment of a transfer completes. -/
def blockWhole (f : Frame) (d : Dev) : Option WReq :=
  match blockSoFar (frameKey f) (bodyN f 4 4) (bodyN f 8 4) (bodyN f 12 2) d with
  | none => none
  | some l =>
    let data := l ++ f.body.drop 16
    if data.length = bodyN f 8 4 then some ⟨frameKey f, bodyN f 3 1, 0, data, true⟩ else none

/-- The abort that every segment of a transfer is checked for: object, access and type. -/
def blockAbort (key ty : Nat) : Nat :=
  match objRow key with
  | none => if objIndex (key / 256) then 2 else 1
  | some r => if r.acc = .ro then 5 else if ty ≠ 8 ∨ r.ty ≠ 8 then 3 else 0

/-- A transfer of another object is open (R499). -/
def blockOther (key : Nat) (d : Dev) : Bool :=
  match d.kmd.xfer with
  | some x => decide (x.idx * 256 + x.sub ≠ key)
  | none => false

/-- The present state is one in which an object is written (R511). -/
def keyListed (key : Nat) (d : Dev) : Bool := (objRow key).all (fun r => stateListed r d)

/-- The abort of a WRITE_BLOCK segment with its busy reason, 0 and 0 where it is stored or applied: the first of R17. -/
def blockCode (f : Frame) (d : Dev) : Nat × Nat :=
  let key := frameKey f
  let so (d : Dev) : Option (List Byte) := blockSoFar key (bodyN f 4 4) (bodyN f 8 4) (bodyN f 12 2) d
  if blockAbort key (bodyN f 3 1) ≠ 0 then (blockAbort key (bodyN f 3 1), 0)
  else if keyListed key d = false then (6, 0)
  else if blockOther key d then (if (so { d with kmd := { d.kmd with xfer := none } }).isSome then (7, 2) else (4, 0))
  else if (so d).isNone then (4, 0)
  else
    match blockWhole f d with
    | some w => writeAbort w d
    | none => (0, 0)

/-- What a WRITE_BLOCK segment does to the transfer that is open (R499): one at an unexpected offset or with another total
ends it, as the last one does; others are stored. -/
def blockStep (f : Frame) (d : Dev) : Dev :=
  let key := frameKey f
  if blockAbort key (bodyN f 3 1) ≠ 0 ∨ keyListed key d = false ∨ blockOther key d = true then d
  else
    match blockSoFar key (bodyN f 4 4) (bodyN f 8 4) (bodyN f 12 2) d, blockWhole f d with
    | some l, none => { d with kmd := { d.kmd with
        xfer := some ⟨key / 256, key % 256, bodyN f 8 4, l ++ f.body.drop 16, d.tim.now⟩ } }
    | _, _ => { d with kmd := { d.kmd with xfer := none } }

/-- The answer to a WRITE_BLOCK. -/
def answerWriteBlock (f : Frame) (d : Dev) : List Byte × Dev :=
  (plainAnswer (blockCode f d).1 (blockCode f d).2 (frameKey f) d, blockStep f d)

/-! ### HEARTBEAT (R467, R501, R502, R504) -/

/-- A heartbeat's effect. -/
def heartbeatAct (f : Frame) (d : Dev) : Dev :=
  let d := cntInc (objCnt 0x102002) { d with kmd := { d.kmd with
    ev := d.kmd.ev.filter (fun e => decide (bodyN f 0 4 < e.seq))
    lastHb := d.tim.count, hbAt := d.tim.now, mgmtLost := false, ctlMac := some f.srcMac } }
  setDegraded 5 false d

/-- The answer to a heartbeat. -/
def heartbeatBody (d : Dev) : List Byte :=
  leBytes 1 d.health.state.code ++ leBytes 1 d.rst.phase ++ leBytes 1 d.rst.hold ++ leBytes 1 (timeQuality d.tim) ++
    leBytes 4 d.health.degraded.toNat ++ leBytes 8 d.tim.count.toNat ++ leBytes 2 d.pwr.lim.drawW ++
    leBytes 2 d.pwr.lim.limit ++ leBytes 4 d.kmd.ev.length ++
    leBytes 4 (match d.kmd.ev with
      | e :: _ => e.seq
      | [] => 0)

/-! ### A frame arrives (R488, R491, R494 to R496) -/

/-- The answer to a request that is carried out, with what forming it changes. -/
def kmdAnswer (f : Frame) (d : Dev) : List Byte × Dev :=
  if f.mtype = 1 then answerRead (frameKey f) d
  else if f.mtype = 2 then answerWrite f d
  else if f.mtype = 3 then answerReadBlock (frameKey f) (bodyN f 4 4) (bodyN f 8 2) d
  else if f.mtype = 4 then answerWriteBlock f d
  else
    let d := heartbeatAct f d
    (heartbeatBody d, d)

/-- The write that a request carries out, where it is accepted. -/
def acceptedWrite (f : Frame) (d : Dev) : Option WReq :=
  let w := if f.mtype = 2 then some (writeReq f)
    else if f.mtype = 4 then (if blockCode f d = (0, 0) then blockWhole f d else none)
    else none
  w.filter (fun w => writeAbort w d == (0, 0))

/-- A request is carried out: its answer leaves, and then the write takes effect (R414, R496). -/
def carryOut (f : Frame) (s : State) : State :=
  let (body, d) := kmdAnswer f s.dev
  let d := answerFrame f body (keepAnswer f body d)
  match acceptedWrite f s.dev with
  | some w => withBoot (writeAct w) { s with dev := d }
  | none => { s with dev := d }

/-- The abort of a request that would be carried out now, with its busy reason; 0 and 0 for none (R17). -/
def requestAbort (f : Frame) (d : Dev) : Nat × Nat :=
  if f.mtype = 1 then ((answerRead (frameKey f) d).1.headD 0 |>.toNat, 0)
  else if f.mtype = 2 then writeAbort (writeReq f) d
  else if f.mtype = 3 then ((answerReadBlock (frameKey f) (bodyN f 4 4) (bodyN f 8 2) d).1.headD 0 |>.toNat, 0)
  else if f.mtype = 4 then blockCode f d
  else (0, 0)

/-- The answer to a request that the module refuses with busy; an abort that R17 puts before busy is the answer instead
(R17, R496; log entry 61). -/
def busyAnswer (f : Frame) (why : Nat) (d : Dev) : List Byte :=
  let a := requestAbort f d
  if a.1 = 0 ∨ a.1 = 7 then plainAnswer 7 why (frameKey f) d else plainAnswer a.1 a.2 (frameKey f) d

/-- During BOOT only reads, heartbeats and the system reset are carried out (R496). -/
def bootRefuses (f : Frame) (d : Dev) : Bool :=
  d.health.state == .start && d.rst.phase == 0 && !(f.mtype == 1 || f.mtype == 3 || f.mtype == 6) &&
    !(f.mtype == 2 && frameKey f == 0x602001)

/-- An authentic request in the queue (R495, R496). -/
def request (f : Frame) (s : State) : State :=
  let d := s.dev
  let d := { d with kmd := { d.kmd with lastCtr := f.counter, ctlMac := some (d.kmd.ctlMac.getD f.srcMac) } }
  if 8 ≤ f.queued then { s with dev := answerFrame f (busyAnswer f 1 d) (cntInc (objCnt 0x10100A) d) }
  else
    match keptAnswer f d with
    | some body => { s with dev := answerFrame f body (cntInc (objCnt 0x101009) d) }
    | none =>
      if bootRefuses f d then
        { s with dev := answerFrame f (busyAnswer f 4 d) (keepAnswer f (busyAnswer f 4 d) d) }
      else carryOut f { s with dev := d }

/-- A request that is not authentic (R494). -/
def refuseAuth (f : Frame) (d : Dev) : Dev :=
  answerFrame f (respBody 8 0 (frameKey f) (abortDetail 8 0 d) []) (cntInc (objCnt 0x101008) d)

/-- The module hears frames: its PHY is released, and it is past the 500 ms after a release (R422, R496, R510). -/
def kmdHears (d : Dev) : Bool :=
  hubUp d && d.health.state != .off && decide (d.kmd.quietUntil ≤ d.tim.now) && d.rst.withdraw != some .sysReset

/-- A frame is addressed to the module with its EtherType (R488). -/
def frameMine (f : Frame) (d : Dev) : Bool := f.dstMac == d.kmd.mac && f.etype.toNat == objGet d 0x101001

/-- A frame arrives. -/
def kmdFrame (f : Frame) (s : State) : State :=
  if kmdHears s.dev = false ∨ frameMine f s.dev = false then s
  else
    let d := cntInc (objCnt 0x101006) s.dev
    if !(frameOk f) then { s with dev := cntInc (objCnt 0x101007) d }
    else if !(frameAuth f d) then { s with dev := refuseAuth f d }
    else request f { s with dev := d }

/-! ### Frames by row of the table -/

/-- A WRITE of an object. -/
def writes (f : Frame) (key : Nat) : Bool := f.mtype == 2 && frameKey f == key

/-- A frame that is the one a row names arrives; another is no command of that row. -/
def rowFrame (mine : Bool) (f : Frame) (s : State) : Host.Outcome State Fault Refusal :=
  .next (if mine then kmdFrame f s else s)

/-- A WRITE of an object with a value. -/
def writesValue (f : Frame) (key v : Nat) : Bool := writes f key && leNat (f.body.drop 16) == v

/-- ACCEPT_BACKWARD_STEP (R38): 0x3010.03. -/
def execAcceptBackwardStep (f : Frame) (s : State) : Host.Outcome State Fault Refusal := rowFrame (writes f 0x301003) f s

/-- PORT_RETRAIN (R282): 0x4400.09. -/
def execPortRetrain (f : Frame) (s : State) : Host.Outcome State Fault Refusal := rowFrame (writes f 0x440009) f s

/-- LANE_UNRETIRE (R293): 0x4400.0B. -/
def execLaneUnretire (f : Frame) (s : State) : Host.Outcome State Fault Refusal := rowFrame (writes f 0x44000B) f s

/-- PORT_ENABLE (R282): 0x4400.01. -/
def execPortEnable (f : Frame) (s : State) : Host.Outcome State Fault Refusal := rowFrame (writes f 0x440001) f s

/-- SENSING_CLEAR (R399): 0x2400.03. -/
def execSensingClear (f : Frame) (s : State) : Host.Outcome State Fault Refusal := rowFrame (writes f 0x240003) f s

/-- PPL_W (R373): 0x2100.02. -/
def execPplW (f : Frame) (s : State) : Host.Outcome State Fault Refusal := rowFrame (writes f 0x210002) f s

/-- FF_MHZ (R379): 0x2120.01. -/
def execFfMhz (f : Frame) (s : State) : Host.Outcome State Fault Refusal := rowFrame (writes f 0x212001) f s

/-- RESET_SYSTEM (R414): 0x6020.01. -/
def execResetSystem (f : Frame) (s : State) : Host.Outcome State Fault Refusal := rowFrame (writes f 0x602001) f s

/-- RESET_CORE (R421): 0x6020.02. -/
def execResetCore (f : Frame) (s : State) : Host.Outcome State Fault Refusal := rowFrame (writes f 0x602002) f s

/-- SCRUB_CONTEXT (R456): 0x6020.03. -/
def execScrubContext (f : Frame) (s : State) : Host.Outcome State Fault Refusal := rowFrame (writes f 0x602003) f s

/-- ADMIT (R464): 0x4110.02. -/
def execAdmitModule (f : Frame) (s : State) : Host.Outcome State Fault Refusal := rowFrame (writes f 0x411002) f s

/-- PORT_ADMIT (R465): 0x4110.03. -/
def execPortAdmit (f : Frame) (s : State) : Host.Outcome State Fault Refusal := rowFrame (writes f 0x411003) f s

/-- ROUTE_TABLE (R248): a segment of 0x4200.01. -/
def execRouteTable (f : Frame) (s : State) : Host.Outcome State Fault Refusal :=
  rowFrame ((f.mtype == 2 || f.mtype == 4) && frameKey f == 0x420001) f s

/-- ROUTE_PATCH (R248): 0x4200.02. -/
def execRoutePatch (f : Frame) (s : State) : Host.Outcome State Fault Refusal := rowFrame (writes f 0x420002) f s

/-- ILV_APPLY (R178): 0x5100.11. -/
def execIlvApply (f : Frame) (s : State) : Host.Outcome State Fault Refusal := rowFrame (writes f 0x510011) f s

/-- DEFECT_REMOVE (R431): 0x6100.09. -/
def execDefectRemove (f : Frame) (s : State) : Host.Outcome State Fault Refusal := rowFrame (writes f 0x610009) f s

/-- OOS_CLEAR (R453): 0x6200.04. -/
def execOosClear (f : Frame) (s : State) : Host.Outcome State Fault Refusal := rowFrame (writes f 0x620004) f s

/-- QUIESCE_REQUEST (R509): 0x6000.02 with the value 4. -/
def execQuiesceRequest (f : Frame) (s : State) : Host.Outcome State Fault Refusal := rowFrame (writesValue f 0x600002 4) f s

/-- MAINT_REQUEST (R509): 0x6000.02 with the value 5. -/
def execMaintRequest (f : Frame) (s : State) : Host.Outcome State Fault Refusal := rowFrame (writesValue f 0x600002 5) f s

/-- RESUME_REQUEST (R509): 0x6000.02 with the value 2. -/
def execResumeRequest (f : Frame) (s : State) : Host.Outcome State Fault Refusal := rowFrame (writesValue f 0x600002 2) f s

/-- HEALTH_CONFIRM (R528): 0x8030.01. -/
def execHealthConfirm (f : Frame) (s : State) : Host.Outcome State Fault Refusal := rowFrame (writes f 0x803001) f s

/-- LS_START (R484): 0xA000.03. -/
def execLsStart (f : Frame) (s : State) : Host.Outcome State Fault Refusal := rowFrame (writes f 0xA00003) f s

/-- LS_STOP (R485): 0xA000.04. -/
def execLsStop (f : Frame) (s : State) : Host.Outcome State Fault Refusal := rowFrame (writes f 0xA00004) f s

/-- KMD_READ (R497): a READ; a frame of no other row's type is discarded here (R491). -/
def execKmdRead (f : Frame) (s : State) : Host.Outcome State Fault Refusal :=
  rowFrame (!(f.mtype == 2 || f.mtype == 3 || f.mtype == 4 || f.mtype == 6)) f s

/-- KMD_WRITE (R17): a WRITE. -/
def execKmdWrite (f : Frame) (s : State) : Host.Outcome State Fault Refusal := rowFrame (f.mtype == 2) f s

/-- READ_BLOCK (R499). -/
def execReadBlock (f : Frame) (s : State) : Host.Outcome State Fault Refusal := rowFrame (f.mtype == 3) f s

/-- WRITE_BLOCK (R499). -/
def execWriteBlock (f : Frame) (s : State) : Host.Outcome State Fault Refusal := rowFrame (f.mtype == 4) f s

/-- HEARTBEAT (R502). -/
def execHeartbeat (f : Frame) (s : State) : Host.Outcome State Fault Refusal := rowFrame (f.mtype == 6) f s

/-! ### Timers of management (R467, R499, R504, R506, R509) -/

/-- A transfer with no segment for 5 s is discarded (R499). -/
def blockTimeout (d : Dev) : Dev :=
  match d.kmd.xfer with
  | some x => advanceTo (x.since + 5 * 10 ^ 9) { d with kmd := { d.kmd with xfer := none } }
  | none => d

/-- A pending quiesce request completes (R509). -/
def quiesceComplete (d : Dev) : Dev :=
  let runs := (List.range 32).any (fun n => kernelRuns d n)
  if d.kmd.pendState = 4 ∧ isUp d = true ∧ runs = false ∧ enginesIdle d = true ∧ topkIdle d = true ∧
      d.rst.coreBusy = false ∧ d.health.scrub.isNone = true then
    setState .quiesced { d with kmd := { d.kmd with pendState := 0 } }
  else d

/-- A pending quiesce request lapses (R509). -/
def quiesceTimeout (d : Dev) : Dev :=
  if d.kmd.pendState = 4 then
    emit 0x1002 0 4 (advanceTo (d.kmd.pendSince + objGet d 0x600003 * 10 ^ 6) { d with kmd := { d.kmd with pendState := 0 } })
  else d

/-- 30 s without a heartbeat (R467, R502). -/
def mgmtLost (d : Dev) : Dev :=
  if isAdmitted d = true ∧ d.kmd.mgmtLost = false then
    let d := advanceTo (d.kmd.hbAt + 30 * 10 ^ 9) d
    setDegraded 5 true (cntInc (objCnt 0x102003) { d with kmd := { d.kmd with mgmtLost := true } })
  else d

/-- The first power window boundary 150 s after the last heartbeat (R373, R467). -/
def lostCapApply (d : Dev) : Dev :=
  if isAdmitted d = true ∧ d.kmd.mgmtLost = true ∧ d.pwr.lim.lostCap = false then
    pwrChange (openLimit true) (advanceWindow (2 ^ 20) (advanceTo (d.kmd.hbAt + 150 * 10 ^ 9) d))
  else d

/-- Every record not yet acknowledged is sent again, 32 a frame (R504). -/
def eventResend (d : Dev) : Dev :=
  if d.kmd.ev.isEmpty ∨ kmdHears d = false then d
  else
    let l := d.kmd.ev
    let d := sendEvents l d
    if 32 < l.length then sendEvents (l.drop 32) d else d

/-- A number of the telemetry report; a reading not taken is a free value. -/
def reading16 (x : Option Int) (d : Dev) : List Byte × Dev :=
  match x with
  | some v => (leBytes 2 (uOf 16 v), d)
  | none =>
    let (v, d) := drawFree d
    (leBytes 2 v.toNat, d)

/-- The telemetry report (R506). -/
def telemetryBody (meanW : Nat) (d : Dev) : List Byte × Dev :=
  let (tj, d) := reading16 (hottestJunction d) d
  let (inlet, d) := reading16 d.pwr.cool.inletDc d
  let (outlet, d) := reading16 d.pwr.cool.outletDc d
  let (volts, d) := reading16 ((inputMean d).map (fun m => Int.ofNat (m.1 / (10 * m.2)))) d
  (leBytes 8 (d.tim.count.toNat / 2 ^ 24) ++ leBytes 1 (timeQuality d.tim) ++ leBytes 1 d.health.state.code ++ zeros 2 ++
    leBytes 4 d.health.degraded.toNat ++ leBytes 2 meanW ++ leBytes 2 d.pwr.lim.limit ++ tj ++ inlet ++ outlet ++ volts ++
    leBytes 8 d.pwr.total.toNat ++ leBytes 8 d.pwr.overhead.toNat ++ leBytes 8 d.pwr.ballastE.toNat ++
    leBytes 4 (pwrStatus d).toNat ++ leBytes 4 (timStatus d.tim).toNat ++ leBytes 4 (memStatus d).toNat, d)

/-- The end of a telemetry period (R44, R505, R506). -/
def telemetryPeriod (meanW : Nat) (d : Dev) : Dev :=
  if !(isLive d) then d
  else
    let d := toBoundary (2 ^ 24) d.tim.telWin d
    let d := { d with tim := { d.tim with telWin := d.tim.count.toNat / 2 ^ 24 } }
    let d := { d with kmd := { d.kmd with overSent := false } }
    if objGet d 0x700001 = 0 then d
    else
      let (r, d) := telemetryBody meanW d
      let d := { d with kmd := { d.kmd with telemetry := r } }
      match d.kmd.ctlMac with
      | none => d
      | some m => sendFrame m 5 (ownKey d) 0 ([1, 0, 0, 0, 0, 0, 0, 0] ++ r) d

/-- QUIESCE_COMPLETE (R509). -/
def execQuiesceComplete (s : State) : Host.Outcome State Fault Refusal := .next (onDev quiesceComplete s)

/-- QUIESCE_TIMEOUT (R509). -/
def execQuiesceTimeout (s : State) : Host.Outcome State Fault Refusal := .next (onDev quiesceTimeout s)

/-- WRITE_BLOCK_TIMEOUT (R499). -/
def execWriteBlockTimeout (s : State) : Host.Outcome State Fault Refusal := .next (onDev blockTimeout s)

/-- MGMT_LOST (R467). -/
def execMgmtLost (s : State) : Host.Outcome State Fault Refusal := .next (onDev mgmtLost s)

/-- LOST_CAP_APPLY (R467). -/
def execLostCapApply (s : State) : Host.Outcome State Fault Refusal := .next (onDev lostCapApply s)

/-- EVENT_RESEND (R504). -/
def execEventResend (s : State) : Host.Outcome State Fault Refusal := .next (onDev eventResend s)

/-- TELEMETRY_PERIOD (R506). -/
def execTelemetryPeriod (meanW : Nat) (s : State) : Host.Outcome State Fault Refusal := .next (onDev (telemetryPeriod meanW) s)

end Sys2Proof.Machine
end

