-- ==== Sys2Proof/Machine/Matrix.lean ====
section
/-! DEFINITION. The matrix operations of slot M (R75 to R78). -/

namespace Sys2Proof.Machine

/-- MLOAD (R119): opcode 0x01. -/
def execMload (l : Land) (c : CycleIn) (k : OpCtl) (f : MOps) (s : State) : Host.Outcome State Fault Refusal :=
  cycleM l c k 0x01 f s

/-- MMAC (R124): opcode 0x02. -/
def execMmac (l : Land) (c : CycleIn) (k : OpCtl) (f : MOps) (s : State) : Host.Outcome State Fault Refusal :=
  cycleM l c k 0x02 f s

/-- MZERO (R128): opcode 0x03. -/
def execMzero (l : Land) (c : CycleIn) (k : OpCtl) (f : MOps) (s : State) : Host.Outcome State Fault Refusal :=
  cycleM l c k 0x03 f s

/-- MSTORE (R136): opcode 0x04. -/
def execMstore (l : Land) (c : CycleIn) (k : OpCtl) (f : MOps) (s : State) : Host.Outcome State Fault Refusal :=
  cycleM l c k 0x04 f s

end Sys2Proof.Machine
end

