-- ==== Sys2Proof/Machine/Move.lean ====
section
/-! DEFINITION. The move operations of slot X (R79 to R81). -/

namespace Sys2Proof.Machine

/-- XCOPY (R186): opcode 0x01. -/
def execXcopy (l : Land) (c : CycleIn) (k : OpCtl) (f : XOps) (s : State) : Host.Outcome State Fault Refusal :=
  cycleX l c k 0x01 f s

/-- XFILL (R186): opcode 0x02. -/
def execXfill (l : Land) (c : CycleIn) (k : OpCtl) (f : XOps) (s : State) : Host.Outcome State Fault Refusal :=
  cycleX l c k 0x02 f s

/-- XUNPACK (R193): opcode 0x03. -/
def execXunpack (l : Land) (c : CycleIn) (k : OpCtl) (f : XOps) (s : State) : Host.Outcome State Fault Refusal :=
  cycleX l c k 0x03 f s

/-- XSTREAM (R188): opcode 0x04. -/
def execXstream (l : Land) (c : CycleIn) (k : OpCtl) (f : XOps) (s : State) : Host.Outcome State Fault Refusal :=
  cycleX l c k 0x04 f s

/-- XNIC (R322): opcode 0x05. -/
def execXnic (l : Land) (c : CycleIn) (k : OpCtl) (f : XOps) (s : State) : Host.Outcome State Fault Refusal :=
  cycleX l c k 0x05 f s

/-- XTRIG (R329): opcode 0x06. -/
def execXtrig (l : Land) (c : CycleIn) (k : OpCtl) (f : XOps) (s : State) : Host.Outcome State Fault Refusal :=
  cycleX l c k 0x06 f s

/-- XTOPK (R160): opcode 0x07. -/
def execXtopk (l : Land) (c : CycleIn) (k : OpCtl) (f : XOps) (s : State) : Host.Outcome State Fault Refusal :=
  cycleX l c k 0x07 f s

/-- XCTR (R80): opcode 0x08. -/
def execXctr (l : Land) (c : CycleIn) (k : OpCtl) (f : XOps) (s : State) : Host.Outcome State Fault Refusal :=
  cycleX l c k 0x08 f s

end Sys2Proof.Machine
end

