-- ==== Sys2Proof/Machine/Scalar.lean ====
section
/-! DEFINITION. The scalar, control and counter-wait operations of slots S0 and S1 (R69, R70). -/

namespace Sys2Proof.Machine

/-- ADD (R70): opcode 0x01. -/
def execAdd (l : Land) (c : CycleIn) (k : OpCtl) (f : SOps) (s : State) : Host.Outcome State Fault Refusal :=
  cycleS l c k 0x01 f s

/-- SUB (R70): opcode 0x02. -/
def execSub (l : Land) (c : CycleIn) (k : OpCtl) (f : SOps) (s : State) : Host.Outcome State Fault Refusal :=
  cycleS l c k 0x02 f s

/-- AND (R70): opcode 0x03. -/
def execAnd (l : Land) (c : CycleIn) (k : OpCtl) (f : SOps) (s : State) : Host.Outcome State Fault Refusal :=
  cycleS l c k 0x03 f s

/-- OR (R70): opcode 0x04. -/
def execOr (l : Land) (c : CycleIn) (k : OpCtl) (f : SOps) (s : State) : Host.Outcome State Fault Refusal :=
  cycleS l c k 0x04 f s

/-- XOR (R70): opcode 0x05. -/
def execXor (l : Land) (c : CycleIn) (k : OpCtl) (f : SOps) (s : State) : Host.Outcome State Fault Refusal :=
  cycleS l c k 0x05 f s

/-- SHL (R70): opcode 0x06. -/
def execShl (l : Land) (c : CycleIn) (k : OpCtl) (f : SOps) (s : State) : Host.Outcome State Fault Refusal :=
  cycleS l c k 0x06 f s

/-- SHR (R70): opcode 0x07. -/
def execShr (l : Land) (c : CycleIn) (k : OpCtl) (f : SOps) (s : State) : Host.Outcome State Fault Refusal :=
  cycleS l c k 0x07 f s

/-- SAR (R70): opcode 0x08. -/
def execSar (l : Land) (c : CycleIn) (k : OpCtl) (f : SOps) (s : State) : Host.Outcome State Fault Refusal :=
  cycleS l c k 0x08 f s

/-- MIN (R70): opcode 0x09. -/
def execMin (l : Land) (c : CycleIn) (k : OpCtl) (f : SOps) (s : State) : Host.Outcome State Fault Refusal :=
  cycleS l c k 0x09 f s

/-- MAX (R70): opcode 0x0A. -/
def execMax (l : Land) (c : CycleIn) (k : OpCtl) (f : SOps) (s : State) : Host.Outcome State Fault Refusal :=
  cycleS l c k 0x0A f s

/-- MINU (R70): opcode 0x0B. -/
def execMinu (l : Land) (c : CycleIn) (k : OpCtl) (f : SOps) (s : State) : Host.Outcome State Fault Refusal :=
  cycleS l c k 0x0B f s

/-- MAXU (R70): opcode 0x0C. -/
def execMaxu (l : Land) (c : CycleIn) (k : OpCtl) (f : SOps) (s : State) : Host.Outcome State Fault Refusal :=
  cycleS l c k 0x0C f s

/-- PEQ (R70): opcode 0x0D. -/
def execPeq (l : Land) (c : CycleIn) (k : OpCtl) (f : SOps) (s : State) : Host.Outcome State Fault Refusal :=
  cycleS l c k 0x0D f s

/-- PLT (R70): opcode 0x0E. -/
def execPlt (l : Land) (c : CycleIn) (k : OpCtl) (f : SOps) (s : State) : Host.Outcome State Fault Refusal :=
  cycleS l c k 0x0E f s

/-- PLTU (R70): opcode 0x0F. -/
def execPltu (l : Land) (c : CycleIn) (k : OpCtl) (f : SOps) (s : State) : Host.Outcome State Fault Refusal :=
  cycleS l c k 0x0F f s

/-- MUL (R70): opcode 0x10. -/
def execMul (l : Land) (c : CycleIn) (k : OpCtl) (f : SOps) (s : State) : Host.Outcome State Fault Refusal :=
  cycleS l c k 0x10 f s

/-- MULH (R70): opcode 0x11. -/
def execMulh (l : Land) (c : CycleIn) (k : OpCtl) (f : SOps) (s : State) : Host.Outcome State Fault Refusal :=
  cycleS l c k 0x11 f s

/-- MULHU (R70): opcode 0x12. -/
def execMulhu (l : Land) (c : CycleIn) (k : OpCtl) (f : SOps) (s : State) : Host.Outcome State Fault Refusal :=
  cycleS l c k 0x12 f s

/-- DIV (R156): opcode 0x13. -/
def execDiv (l : Land) (c : CycleIn) (k : OpCtl) (f : SOps) (s : State) : Host.Outcome State Fault Refusal :=
  cycleS l c k 0x13 f s

/-- DIVU (R70): opcode 0x14. -/
def execDivu (l : Land) (c : CycleIn) (k : OpCtl) (f : SOps) (s : State) : Host.Outcome State Fault Refusal :=
  cycleS l c k 0x14 f s

/-- REM (R156): opcode 0x15. -/
def execRem (l : Land) (c : CycleIn) (k : OpCtl) (f : SOps) (s : State) : Host.Outcome State Fault Refusal :=
  cycleS l c k 0x15 f s

/-- REMU (R70): opcode 0x16. -/
def execRemu (l : Land) (c : CycleIn) (k : OpCtl) (f : SOps) (s : State) : Host.Outcome State Fault Refusal :=
  cycleS l c k 0x16 f s

/-- MOVI (R67): opcode 0x18. -/
def execMovi (l : Land) (c : CycleIn) (k : OpCtl) (f : SOps) (s : State) : Host.Outcome State Fault Refusal :=
  cycleS l c k 0x18 f s

/-- PAND (R70): opcode 0x1A. -/
def execPand (l : Land) (c : CycleIn) (k : OpCtl) (f : SOps) (s : State) : Host.Outcome State Fault Refusal :=
  cycleS l c k 0x1A f s

/-- POR (R70): opcode 0x1B. -/
def execPor (l : Land) (c : CycleIn) (k : OpCtl) (f : SOps) (s : State) : Host.Outcome State Fault Refusal :=
  cycleS l c k 0x1B f s

/-- PANDN (R70): opcode 0x1C. -/
def execPandn (l : Land) (c : CycleIn) (k : OpCtl) (f : SOps) (s : State) : Host.Outcome State Fault Refusal :=
  cycleS l c k 0x1C f s

/-- LD (R70): opcode 0x20 plus the access size, 0 for 8 bytes to 3 for 1 byte. -/
def execLd (l : Land) (c : CycleIn) (k : OpCtl) (size : BitVec 2) (f : SOps) (s : State) :
    Host.Outcome State Fault Refusal :=
  cycleS l c k (0x20 + size.setWidth 8) f s

/-- ST (R70): opcode 0x28 plus the access size, 0 for 8 bytes to 3 for 1 byte. -/
def execSt (l : Land) (c : CycleIn) (k : OpCtl) (size : BitVec 2) (f : SOps) (s : State) :
    Host.Outcome State Fault Refusal :=
  cycleS l c k (0x28 + size.setWidth 8) f s

/-- MFS (R99): opcode 0x2E. -/
def execMfs (l : Land) (c : CycleIn) (k : OpCtl) (f : SOps) (s : State) : Host.Outcome State Fault Refusal :=
  cycleS l c k 0x2E f s

/-- MTS (R99): opcode 0x2F. -/
def execMts (l : Land) (c : CycleIn) (k : OpCtl) (f : SOps) (s : State) : Host.Outcome State Fault Refusal :=
  cycleS l c k 0x2F f s

/-- BR (R87): opcode 0x30. -/
def execBr (l : Land) (c : CycleIn) (k : OpCtl) (f : SOps) (s : State) : Host.Outcome State Fault Refusal :=
  cycleS l c k 0x30 f s

/-- BRR (R87): opcode 0x31. -/
def execBrr (l : Land) (c : CycleIn) (k : OpCtl) (f : SOps) (s : State) : Host.Outcome State Fault Refusal :=
  cycleS l c k 0x31 f s

/-- CALL (R70): opcode 0x32. -/
def execCall (l : Land) (c : CycleIn) (k : OpCtl) (f : SOps) (s : State) : Host.Outcome State Fault Refusal :=
  cycleS l c k 0x32 f s

/-- RET (R87): opcode 0x33. -/
def execRet (l : Land) (c : CycleIn) (k : OpCtl) (f : SOps) (s : State) : Host.Outcome State Fault Refusal :=
  cycleS l c k 0x33 f s

/-- WAIT (R96): opcode 0x38. -/
def execWait (l : Land) (c : CycleIn) (k : OpCtl) (f : SOps) (s : State) : Host.Outcome State Fault Refusal :=
  cycleS l c k 0x38 f s

/-- DRAIN (R98): opcode 0x39. -/
def execDrain (l : Land) (c : CycleIn) (k : OpCtl) (f : SOps) (s : State) : Host.Outcome State Fault Refusal :=
  cycleS l c k 0x39 f s

/-- BRK (R70): opcode 0x3E. -/
def execBrk (l : Land) (c : CycleIn) (k : OpCtl) (f : SOps) (s : State) : Host.Outcome State Fault Refusal :=
  cycleS l c k 0x3E f s

/-- EXIT (R102): opcode 0x3F. -/
def execExit (l : Land) (c : CycleIn) (k : OpCtl) (f : SOps) (s : State) : Host.Outcome State Fault Refusal :=
  cycleS l c k 0x3F f s

end Sys2Proof.Machine
end

