-- ==== Sys2Proof/Machine/Vector.lean ====
section
/-! DEFINITION. The vector operations of slots V0 and V1 (R71 to R74). -/

namespace Sys2Proof.Machine

/-- VADD (R146): opcode 0x01. -/
def execVadd (l : Land) (c : CycleIn) (k : OpCtl) (f : VOps) (s : State) : Host.Outcome State Fault Refusal :=
  cycleV l c k 0x01 f s

/-- VSUB (R146): opcode 0x02. -/
def execVsub (l : Land) (c : CycleIn) (k : OpCtl) (f : VOps) (s : State) : Host.Outcome State Fault Refusal :=
  cycleV l c k 0x02 f s

/-- VMUL (R148): opcode 0x03. -/
def execVmul (l : Land) (c : CycleIn) (k : OpCtl) (f : VOps) (s : State) : Host.Outcome State Fault Refusal :=
  cycleV l c k 0x03 f s

/-- VFMA (R147): opcode 0x04. -/
def execVfma (l : Land) (c : CycleIn) (k : OpCtl) (f : VOps) (s : State) : Host.Outcome State Fault Refusal :=
  cycleV l c k 0x04 f s

/-- VMIN (R147): opcode 0x05. -/
def execVmin (l : Land) (c : CycleIn) (k : OpCtl) (f : VOps) (s : State) : Host.Outcome State Fault Refusal :=
  cycleV l c k 0x05 f s

/-- VMAX (R147): opcode 0x06. -/
def execVmax (l : Land) (c : CycleIn) (k : OpCtl) (f : VOps) (s : State) : Host.Outcome State Fault Refusal :=
  cycleV l c k 0x06 f s

/-- VABS (R147): opcode 0x07. -/
def execVabs (l : Land) (c : CycleIn) (k : OpCtl) (f : VOps) (s : State) : Host.Outcome State Fault Refusal :=
  cycleV l c k 0x07 f s

/-- VNEG (R147): opcode 0x08. -/
def execVneg (l : Land) (c : CycleIn) (k : OpCtl) (f : VOps) (s : State) : Host.Outcome State Fault Refusal :=
  cycleV l c k 0x08 f s

/-- VAND (R73): opcode 0x09. -/
def execVand (l : Land) (c : CycleIn) (k : OpCtl) (f : VOps) (s : State) : Host.Outcome State Fault Refusal :=
  cycleV l c k 0x09 f s

/-- VOR (R73): opcode 0x0A. -/
def execVor (l : Land) (c : CycleIn) (k : OpCtl) (f : VOps) (s : State) : Host.Outcome State Fault Refusal :=
  cycleV l c k 0x0A f s

/-- VXOR (R73): opcode 0x0B. -/
def execVxor (l : Land) (c : CycleIn) (k : OpCtl) (f : VOps) (s : State) : Host.Outcome State Fault Refusal :=
  cycleV l c k 0x0B f s

/-- VSHL (R148): opcode 0x0C. -/
def execVshl (l : Land) (c : CycleIn) (k : OpCtl) (f : VOps) (s : State) : Host.Outcome State Fault Refusal :=
  cycleV l c k 0x0C f s

/-- VSHR (R148): opcode 0x0D. -/
def execVshr (l : Land) (c : CycleIn) (k : OpCtl) (f : VOps) (s : State) : Host.Outcome State Fault Refusal :=
  cycleV l c k 0x0D f s

/-- VSAR (R148): opcode 0x0E. -/
def execVsar (l : Land) (c : CycleIn) (k : OpCtl) (f : VOps) (s : State) : Host.Outcome State Fault Refusal :=
  cycleV l c k 0x0E f s

/-- VCMP (R149): opcode 0x10. -/
def execVcmp (l : Land) (c : CycleIn) (k : OpCtl) (f : VOps) (s : State) : Host.Outcome State Fault Refusal :=
  cycleV l c k 0x10 f s

/-- VSEL (R73): opcode 0x11. -/
def execVsel (l : Land) (c : CycleIn) (k : OpCtl) (f : VOps) (s : State) : Host.Outcome State Fault Refusal :=
  cycleV l c k 0x11 f s

/-- VCVT (R150): opcode 0x18. -/
def execVcvt (l : Land) (c : CycleIn) (k : OpCtl) (f : VOps) (s : State) : Host.Outcome State Fault Refusal :=
  cycleV l c k 0x18 f s

/-- VPERM (R151): opcode 0x20. -/
def execVperm (l : Land) (c : CycleIn) (k : OpCtl) (f : VOps) (s : State) : Host.Outcome State Fault Refusal :=
  cycleV l c k 0x20 f s

/-- VBCAST (R151): opcode 0x21. -/
def execVbcast (l : Land) (c : CycleIn) (k : OpCtl) (f : VOps) (s : State) : Host.Outcome State Fault Refusal :=
  cycleV l c k 0x21 f s

/-- VEXT (R151): opcode 0x22. -/
def execVext (l : Land) (c : CycleIn) (k : OpCtl) (f : VOps) (s : State) : Host.Outcome State Fault Refusal :=
  cycleV l c k 0x22 f s

/-- VINS (R151): opcode 0x23. -/
def execVins (l : Land) (c : CycleIn) (k : OpCtl) (f : VOps) (s : State) : Host.Outcome State Fault Refusal :=
  cycleV l c k 0x23 f s

/-- VREDADD (R153): opcode 0x28. -/
def execVredadd (l : Land) (c : CycleIn) (k : OpCtl) (f : VOps) (s : State) : Host.Outcome State Fault Refusal :=
  cycleV l c k 0x28 f s

/-- VREDMAX (R153): opcode 0x29. -/
def execVredmax (l : Land) (c : CycleIn) (k : OpCtl) (f : VOps) (s : State) : Host.Outcome State Fault Refusal :=
  cycleV l c k 0x29 f s

/-- VREDMIN (R153): opcode 0x2A. -/
def execVredmin (l : Land) (c : CycleIn) (k : OpCtl) (f : VOps) (s : State) : Host.Outcome State Fault Refusal :=
  cycleV l c k 0x2A f s

/-- VLD (R73): opcode 0x30. -/
def execVld (l : Land) (c : CycleIn) (k : OpCtl) (f : VOps) (s : State) : Host.Outcome State Fault Refusal :=
  cycleV l c k 0x30 f s

/-- VST (R73): opcode 0x31. -/
def execVst (l : Land) (c : CycleIn) (k : OpCtl) (f : VOps) (s : State) : Host.Outcome State Fault Refusal :=
  cycleV l c k 0x31 f s

/-- VGATHER (R152): opcode 0x32. -/
def execVgather (l : Land) (c : CycleIn) (k : OpCtl) (f : VOps) (s : State) : Host.Outcome State Fault Refusal :=
  cycleV l c k 0x32 f s

/-- VSCATTER (R152): opcode 0x33. -/
def execVscatter (l : Land) (c : CycleIn) (k : OpCtl) (f : VOps) (s : State) : Host.Outcome State Fault Refusal :=
  cycleV l c k 0x33 f s

/-- VSFU (R154): opcode 0x38. -/
def execVsfu (l : Land) (c : CycleIn) (k : OpCtl) (f : VOps) (s : State) : Host.Outcome State Fault Refusal :=
  cycleV l c k 0x38 f s

/-- VRNG (R158): opcode 0x3C. -/
def execVrng (l : Land) (c : CycleIn) (k : OpCtl) (f : VOps) (s : State) : Host.Outcome State Fault Refusal :=
  cycleV l c k 0x3C f s

end Sys2Proof.Machine
end

