-- ==== Sys2Proof/Machine/Dispatch.lean ====
section
/-! DEFINITION. One arm for each command: a direct call of its meaning. -/

namespace Sys2Proof.Machine

/-- The effect of a command on everything but the queue. -/
def exec (i : Instr) (s : State) : Host.Outcome State Fault Refusal :=
  match i with
  | .bundleIssue l c => Sys2Proof.Machine.execBundleIssue l c s
  | .nop l c k => Sys2Proof.Machine.execNop l c k s
  | .add l c k f => Sys2Proof.Machine.execAdd l c k f s
  | .sub l c k f => Sys2Proof.Machine.execSub l c k f s
  | .and l c k f => Sys2Proof.Machine.execAnd l c k f s
  | .or l c k f => Sys2Proof.Machine.execOr l c k f s
  | .xor l c k f => Sys2Proof.Machine.execXor l c k f s
  | .shl l c k f => Sys2Proof.Machine.execShl l c k f s
  | .shr l c k f => Sys2Proof.Machine.execShr l c k f s
  | .sar l c k f => Sys2Proof.Machine.execSar l c k f s
  | .min l c k f => Sys2Proof.Machine.execMin l c k f s
  | .max l c k f => Sys2Proof.Machine.execMax l c k f s
  | .minu l c k f => Sys2Proof.Machine.execMinu l c k f s
  | .maxu l c k f => Sys2Proof.Machine.execMaxu l c k f s
  | .peq l c k f => Sys2Proof.Machine.execPeq l c k f s
  | .plt l c k f => Sys2Proof.Machine.execPlt l c k f s
  | .pltu l c k f => Sys2Proof.Machine.execPltu l c k f s
  | .mul l c k f => Sys2Proof.Machine.execMul l c k f s
  | .mulh l c k f => Sys2Proof.Machine.execMulh l c k f s
  | .mulhu l c k f => Sys2Proof.Machine.execMulhu l c k f s
  | .div l c k f => Sys2Proof.Machine.execDiv l c k f s
  | .divu l c k f => Sys2Proof.Machine.execDivu l c k f s
  | .rem l c k f => Sys2Proof.Machine.execRem l c k f s
  | .remu l c k f => Sys2Proof.Machine.execRemu l c k f s
  | .movi l c k f => Sys2Proof.Machine.execMovi l c k f s
  | .pand l c k f => Sys2Proof.Machine.execPand l c k f s
  | .por l c k f => Sys2Proof.Machine.execPor l c k f s
  | .pandn l c k f => Sys2Proof.Machine.execPandn l c k f s
  | .ld l c k size f => Sys2Proof.Machine.execLd l c k size f s
  | .st l c k size f => Sys2Proof.Machine.execSt l c k size f s
  | .mfs l c k f => Sys2Proof.Machine.execMfs l c k f s
  | .mts l c k f => Sys2Proof.Machine.execMts l c k f s
  | .br l c k f => Sys2Proof.Machine.execBr l c k f s
  | .brr l c k f => Sys2Proof.Machine.execBrr l c k f s
  | .call l c k f => Sys2Proof.Machine.execCall l c k f s
  | .ret l c k f => Sys2Proof.Machine.execRet l c k f s
  | .wait l c k f => Sys2Proof.Machine.execWait l c k f s
  | .drain l c k f => Sys2Proof.Machine.execDrain l c k f s
  | .brk l c k f => Sys2Proof.Machine.execBrk l c k f s
  | .exit l c k f => Sys2Proof.Machine.execExit l c k f s
  | .vadd l c k f => Sys2Proof.Machine.execVadd l c k f s
  | .vsub l c k f => Sys2Proof.Machine.execVsub l c k f s
  | .vmul l c k f => Sys2Proof.Machine.execVmul l c k f s
  | .vfma l c k f => Sys2Proof.Machine.execVfma l c k f s
  | .vmin l c k f => Sys2Proof.Machine.execVmin l c k f s
  | .vmax l c k f => Sys2Proof.Machine.execVmax l c k f s
  | .vabs l c k f => Sys2Proof.Machine.execVabs l c k f s
  | .vneg l c k f => Sys2Proof.Machine.execVneg l c k f s
  | .vand l c k f => Sys2Proof.Machine.execVand l c k f s
  | .vor l c k f => Sys2Proof.Machine.execVor l c k f s
  | .vxor l c k f => Sys2Proof.Machine.execVxor l c k f s
  | .vshl l c k f => Sys2Proof.Machine.execVshl l c k f s
  | .vshr l c k f => Sys2Proof.Machine.execVshr l c k f s
  | .vsar l c k f => Sys2Proof.Machine.execVsar l c k f s
  | .vcmp l c k f => Sys2Proof.Machine.execVcmp l c k f s
  | .vsel l c k f => Sys2Proof.Machine.execVsel l c k f s
  | .vcvt l c k f => Sys2Proof.Machine.execVcvt l c k f s
  | .vperm l c k f => Sys2Proof.Machine.execVperm l c k f s
  | .vbcast l c k f => Sys2Proof.Machine.execVbcast l c k f s
  | .vext l c k f => Sys2Proof.Machine.execVext l c k f s
  | .vins l c k f => Sys2Proof.Machine.execVins l c k f s
  | .vredadd l c k f => Sys2Proof.Machine.execVredadd l c k f s
  | .vredmax l c k f => Sys2Proof.Machine.execVredmax l c k f s
  | .vredmin l c k f => Sys2Proof.Machine.execVredmin l c k f s
  | .vld l c k f => Sys2Proof.Machine.execVld l c k f s
  | .vst l c k f => Sys2Proof.Machine.execVst l c k f s
  | .vgather l c k f => Sys2Proof.Machine.execVgather l c k f s
  | .vscatter l c k f => Sys2Proof.Machine.execVscatter l c k f s
  | .vsfu l c k f => Sys2Proof.Machine.execVsfu l c k f s
  | .vrng l c k f => Sys2Proof.Machine.execVrng l c k f s
  | .mload l c k f => Sys2Proof.Machine.execMload l c k f s
  | .mmac l c k f => Sys2Proof.Machine.execMmac l c k f s
  | .mzero l c k f => Sys2Proof.Machine.execMzero l c k f s
  | .mstore l c k f => Sys2Proof.Machine.execMstore l c k f s
  | .xcopy l c k f => Sys2Proof.Machine.execXcopy l c k f s
  | .xfill l c k f => Sys2Proof.Machine.execXfill l c k f s
  | .xunpack l c k f => Sys2Proof.Machine.execXunpack l c k f s
  | .xstream l c k f => Sys2Proof.Machine.execXstream l c k f s
  | .xnic l c k f => Sys2Proof.Machine.execXnic l c k f s
  | .xtrig l c k f => Sys2Proof.Machine.execXtrig l c k f s
  | .xtopk l c k f => Sys2Proof.Machine.execXtopk l c k f s
  | .xctr l c k f => Sys2Proof.Machine.execXctr l c k f s
  | .trackerRetire l id => Sys2Proof.Machine.execTrackerRetire l id s
  | .trackerTimeout l id => Sys2Proof.Machine.execTrackerTimeout l id s
  | .waitTimeout l => Sys2Proof.Machine.execWaitTimeout l s
  | .watchdog l => Sys2Proof.Machine.execWatchdog l s
  | .kernelComplete slot ring energy => Sys2Proof.Machine.execKernelComplete slot ring energy s
  | .streamJobStart g unit => Sys2Proof.Machine.execStreamJobStart g unit s
  | .unpackJobStart hall engine => Sys2Proof.Machine.execUnpackJobStart hall engine s
  | .topkJobStart g => Sys2Proof.Machine.execTopkJobStart g s
  | .patrolScrub pa e => Sys2Proof.Machine.execPatrolScrub pa e s
  | .rowSpareDone bank row => Sys2Proof.Machine.execRowSpareDone bank row s
  | .powerDownEntry chan => Sys2Proof.Machine.execPowerDownEntry chan s
  | .selfRefreshEntry chan => Sys2Proof.Machine.execSelfRefreshEntry chan s
  | .selfRefreshExit chan => Sys2Proof.Machine.execSelfRefreshExit chan s
  | .storeGate store => Sys2Proof.Machine.execStoreGate store s
  | .storeWake store => Sys2Proof.Machine.execStoreWake store s
  | .xltInv v => Sys2Proof.Machine.execXltInv v s
  | .xltRootWrite slot v => Sys2Proof.Machine.execXltRootWrite slot v s
  | .timeSync port c => Sys2Proof.Machine.execTimeSync port c s
  | .timeReq port => Sys2Proof.Machine.execTimeReq port s
  | .timePortReject port => Sys2Proof.Machine.execTimePortReject port s
  | .acceptBackwardStep f => Sys2Proof.Machine.execAcceptBackwardStep f s
  | .powerWindowBoundary m => Sys2Proof.Machine.execPowerWindowBoundary m s
  | .telemetryPeriod meanW => Sys2Proof.Machine.execTelemetryPeriod meanW s
  | .lowWordRead off wide => Sys2Proof.Machine.execLowWordRead off wide s
  | .write c => Sys2Proof.Machine.execWrite c s
  | .writeC c => Sys2Proof.Machine.execWriteC c s
  | .writePart c => Sys2Proof.Machine.execWritePart c s
  | .writePartC c => Sys2Proof.Machine.execWritePartC c s
  | .notify c => Sys2Proof.Machine.execNotify c s
  | .getReq c => Sys2Proof.Machine.execGetReq c s
  | .getRsp c => Sys2Proof.Machine.execGetRsp c s
  | .atomicReq c => Sys2Proof.Machine.execAtomicReq c s
  | .atomicRsp c => Sys2Proof.Machine.execAtomicRsp c s
  | .ack c => Sys2Proof.Machine.execAck c s
  | .bounceNotice c => Sys2Proof.Machine.execBounceNotice c s
  | .collData c => Sys2Proof.Machine.execCollData c s
  | .collHdr c => Sys2Proof.Machine.execCollHdr c s
  | .finish c => Sys2Proof.Machine.execFinish c s
  | .doneMsg c => Sys2Proof.Machine.execDoneMsg c s
  | .abortMsg c => Sys2Proof.Machine.execAbortMsg c s
  | .overflow c => Sys2Proof.Machine.execOverflow c s
  | .digest c => Sys2Proof.Machine.execDigest c s
  | .mgmt c => Sys2Proof.Machine.execMgmt c s
  | .depart port c => Sys2Proof.Machine.execDepart port c s
  | .counterUpdate ctr ctx o => Sys2Proof.Machine.execCounterUpdate ctr ctx o s
  | .put ue => Sys2Proof.Machine.execPut ue s
  | .bcast ue => Sys2Proof.Machine.execBcast ue s
  | .reduce ue => Sys2Proof.Machine.execReduce ue s
  | .exchange ue => Sys2Proof.Machine.execExchange ue s
  | .contrib ue => Sys2Proof.Machine.execContrib ue s
  | .ackDelay src ctx gen cls => Sys2Proof.Machine.execAckDelay src ctx gen cls s
  | .itemTimeout dst ctx gen seq => Sys2Proof.Machine.execItemTimeout dst ctx gen seq s
  | .k3Resend dst ctx gen seq => Sys2Proof.Machine.execK3Resend dst ctx gen seq s
  | .flowForget dst ctx gen => Sys2Proof.Machine.execFlowForget dst ctx gen s
  | .earlyFullRetry dst ctx gen seq => Sys2Proof.Machine.execEarlyFullRetry dst ctx gen seq s
  | .collDoneTimeout ctx group num => Sys2Proof.Machine.execCollDoneTimeout ctx group num s
  | .cqRoom slot => Sys2Proof.Machine.execCqRoom slot s
  | .unitReceive port u => Sys2Proof.Machine.execUnitReceive port u s
  | .unitTransmit port => Sys2Proof.Machine.execUnitTransmit port s
  | .ident port payload => Sys2Proof.Machine.execIdent port payload s
  | .retrainReq port cause => Sys2Proof.Machine.execRetrainReq port cause s
  | .credit port n => Sys2Proof.Machine.execCredit port n s
  | .trainingFrame port lane t => Sys2Proof.Machine.execTrainingFrame port lane t s
  | .portSignalDetect port lanes => Sys2Proof.Machine.execPortSignalDetect port lanes s
  | .laneReady port lane => Sys2Proof.Machine.execLaneReady port lane s
  | .equalizeTimeout port => Sys2Proof.Machine.execEqualizeTimeout port s
  | .alignTimeout port => Sys2Proof.Machine.execAlignTimeout port s
  | .identifyTimeout port => Sys2Proof.Machine.execIdentifyTimeout port s
  | .retrainTimeout port => Sys2Proof.Machine.execRetrainTimeout port s
  | .drainEnd port => Sys2Proof.Machine.execDrainEnd port s
  | .laneLoss port lanes => Sys2Proof.Machine.execLaneLoss port lanes s
  | .fecLimit port lane => Sys2Proof.Machine.execFecLimit port lane s
  | .retryLimit port => Sys2Proof.Machine.execRetryLimit port s
  | .ackTimeout port => Sys2Proof.Machine.execAckTimeout port s
  | .freqMismatch port => Sys2Proof.Machine.execFreqMismatch port s
  | .expClaim port => Sys2Proof.Machine.execExpClaim port s
  | .expHoldoffExpiry port => Sys2Proof.Machine.execExpHoldoffExpiry port s
  | .portRetrain f => Sys2Proof.Machine.execPortRetrain f s
  | .laneUnretire f => Sys2Proof.Machine.execLaneUnretire f s
  | .portEnable f => Sys2Proof.Machine.execPortEnable f s
  | .inputSample mv heldUs => Sys2Proof.Machine.execInputSample mv heldUs s
  | .inputMarginal on => Sys2Proof.Machine.execInputMarginal on s
  | .enMem level heldUs => Sys2Proof.Machine.execEnMem level heldUs s
  | .enMain level heldUs => Sys2Proof.Machine.execEnMain level heldUs s
  | .railRegulated main => Sys2Proof.Machine.execRailRegulated main s
  | .railTimeout rail => Sys2Proof.Machine.execRailTimeout rail s
  | .limiterInterval x => Sys2Proof.Machine.execLimiterInterval x s
  | .railVoltageReached hall => Sys2Proof.Machine.execRailVoltageReached hall s
  | .pwrBrakeN level heldNs => Sys2Proof.Machine.execPwrBrakeN level heldNs s
  | .droop g mv => Sys2Proof.Machine.execDroop g mv s
  | .droopRelease g cycles => Sys2Proof.Machine.execDroopRelease g cycles s
  | .junctionSample sensor deciC => Sys2Proof.Machine.execJunctionSample sensor deciC s
  | .selfThrottleStep g => Sys2Proof.Machine.execSelfThrottleStep g s
  | .coolantSample inlet outlet => Sys2Proof.Machine.execCoolantSample inlet outlet s
  | .coolantHot on => Sys2Proof.Machine.execCoolantHot on s
  | .flowPulseEdge sinceUs => Sys2Proof.Machine.execFlowPulseEdge sinceUs s
  | .leakSample mv => Sys2Proof.Machine.execLeakSample mv s
  | .heatBalanceCheck meanW inlet outlet => Sys2Proof.Machine.execHeatBalanceCheck meanW inlet outlet s
  | .junctionStaticCheck g rise => Sys2Proof.Machine.execJunctionStaticCheck g rise s
  | .sensingClear f => Sys2Proof.Machine.execSensingClear f s
  | .pwrCap v => Sys2Proof.Machine.execPwrCap v s
  | .pwrFf v => Sys2Proof.Machine.execPwrFf v s
  | .pplW f => Sys2Proof.Machine.execPplW f s
  | .ffMhz f => Sys2Proof.Machine.execFfMhz f s
  | .porRelease locked => Sys2Proof.Machine.execPorRelease locked s
  | .refclkLockRetry locked => Sys2Proof.Machine.execRefclkLockRetry locked s
  | .sysRstN level heldNs => Sys2Proof.Machine.execSysRstN level heldNs s
  | .perstN level heldNs => Sys2Proof.Machine.execPerstN level heldNs s
  | .startPhaseDone x => Sys2Proof.Machine.execStartPhaseDone x s
  | .coreResetDone bad => Sys2Proof.Machine.execCoreResetDone bad s
  | .resetSystem f => Sys2Proof.Machine.execResetSystem f s
  | .resetCore f => Sys2Proof.Machine.execResetCore f s
  | .scrubContext f => Sys2Proof.Machine.execScrubContext f s
  | .hifCtxScrub v => Sys2Proof.Machine.execHifCtxScrub v s
  | .admitModule f => Sys2Proof.Machine.execAdmitModule f s
  | .portAdmit f => Sys2Proof.Machine.execPortAdmit f s
  | .routeTable f => Sys2Proof.Machine.execRouteTable f s
  | .routePatch f => Sys2Proof.Machine.execRoutePatch f s
  | .ilvApply f => Sys2Proof.Machine.execIlvApply f s
  | .defectRemove f => Sys2Proof.Machine.execDefectRemove f s
  | .oosClear f => Sys2Proof.Machine.execOosClear f s
  | .quiesceRequest f => Sys2Proof.Machine.execQuiesceRequest f s
  | .maintRequest f => Sys2Proof.Machine.execMaintRequest f s
  | .resumeRequest f => Sys2Proof.Machine.execResumeRequest f s
  | .healthConfirm f => Sys2Proof.Machine.execHealthConfirm f s
  | .lsStart f => Sys2Proof.Machine.execLsStart f s
  | .lsStop f => Sys2Proof.Machine.execLsStop f s
  | .kmdRead f => Sys2Proof.Machine.execKmdRead f s
  | .kmdWrite f => Sys2Proof.Machine.execKmdWrite f s
  | .readBlock f => Sys2Proof.Machine.execReadBlock f s
  | .writeBlock f => Sys2Proof.Machine.execWriteBlock f s
  | .heartbeat f => Sys2Proof.Machine.execHeartbeat f s
  | .readId addr => Sys2Proof.Machine.execReadId addr s
  | .readStatus addr => Sys2Proof.Machine.execReadStatus addr s
  | .readFlash addr len => Sys2Proof.Machine.execReadFlash addr len s
  | .stageErase addr data => Sys2Proof.Machine.execStageErase addr data s
  | .stageProgram addr data => Sys2Proof.Machine.execStageProgram addr data s
  | .stageCommit addr data => Sys2Proof.Machine.execStageCommit addr data s
  | .keyWrite addr data => Sys2Proof.Machine.execKeyWrite addr data s
  | .keyErase addr data => Sys2Proof.Machine.execKeyErase addr data s
  | .serviceCommandDone failed => Sys2Proof.Machine.execServiceCommandDone failed s
  | .extest shift => Sys2Proof.Machine.execExtest shift s
  | .samplePreload shift => Sys2Proof.Machine.execSamplePreload shift s
  | .bypass code => Sys2Proof.Machine.execBypass code s
  | .trstN level => Sys2Proof.Machine.execTrstN level s
  | .doorbell off bytes v => Sys2Proof.Machine.execDoorbell off bytes v s
  | .launchFetchDone slot ring r => Sys2Proof.Machine.execLaunchFetchDone slot ring r s
  | .kernelStart slot ring => Sys2Proof.Machine.execKernelStart slot ring s
  | .dmaToModule slot ring r => Sys2Proof.Machine.execDmaToModule slot ring r s
  | .dmaToHost slot ring => Sys2Proof.Machine.execDmaToHost slot ring s
  | .marker slot ring => Sys2Proof.Machine.execMarker slot ring s
  | .dmaComplete slot ring => Sys2Proof.Machine.execDmaComplete slot ring s
  | .hostCompletionTimeout slot ring => Sys2Proof.Machine.execHostCompletionTimeout slot ring s
  | .bar2Write off data en ep => Sys2Proof.Machine.execBar2Write off data en ep s
  | .bar2Read off len => Sys2Proof.Machine.execBar2Read off len s
  | .lqCfgWrite slot ring v => Sys2Proof.Machine.execLqCfgWrite slot ring v s
  | .ctxCfgWrite slot word v => Sys2Proof.Machine.execCtxCfgWrite slot word v s
  | .ctrWrite ctr v => Sys2Proof.Machine.execCtrWrite ctr v s
  | .d3hot enter => Sys2Proof.Machine.execD3hot enter s
  | .registerWrite off wide v => Sys2Proof.Machine.execRegisterWrite off wide v s
  | .laneLock port lane => Sys2Proof.Machine.execLaneLock port lane s
  | .bar0BadAccess off size isRead => Sys2Proof.Machine.execBar0BadAccess off size isRead s
  | .pcieLinkChange up speed width flit => Sys2Proof.Machine.execPcieLinkChange up speed width flit s
  | .xltInvDone => Sys2Proof.Machine.execXltInvDone s
  | .combinedEstimate => Sys2Proof.Machine.execCombinedEstimate s
  | .estimateTimeout => Sys2Proof.Machine.execEstimateTimeout s
  | .holdoverLimit => Sys2Proof.Machine.execHoldoverLimit s
  | .expressBoundWithdraw => Sys2Proof.Machine.execExpressBoundWithdraw s
  | .rtPulseEdge => Sys2Proof.Machine.execRtPulseEdge s
  | .rtPulseAbsent => Sys2Proof.Machine.execRtPulseAbsent s
  | .expressWindowBoundary => Sys2Proof.Machine.execExpressWindowBoundary s
  | .deadlineReached => Sys2Proof.Machine.execDeadlineReached s
  | .cellRoute => Sys2Proof.Machine.execCellRoute s
  | .get => Sys2Proof.Machine.execGet s
  | .atomic => Sys2Proof.Machine.execAtomic s
  | .notifyDescriptor => Sys2Proof.Machine.execNotifyDescriptor s
  | .reproAtomicHold => Sys2Proof.Machine.execReproAtomicHold s
  | .lsPartnerAbsent => Sys2Proof.Machine.execLsPartnerAbsent s
  | .supplyFault => Sys2Proof.Machine.execSupplyFault s
  | .flowLost => Sys2Proof.Machine.execFlowLost s
  | .flowRestored => Sys2Proof.Machine.execFlowRestored s
  | .leakWet => Sys2Proof.Machine.execLeakWet s
  | .leakLoopFault => Sys2Proof.Machine.execLeakLoopFault s
  | .leakDry => Sys2Proof.Machine.execLeakDry s
  | .powerOnReset => Sys2Proof.Machine.execPowerOnReset s
  | .refclkLoss => Sys2Proof.Machine.execRefclkLoss s
  | .refclkRestored => Sys2Proof.Machine.execRefclkRestored s
  | .withdrawEnd => Sys2Proof.Machine.execWithdrawEnd s
  | .functionLevelReset => Sys2Proof.Machine.execFunctionLevelReset s
  | .hmpWatchdog => Sys2Proof.Machine.execHmpWatchdog s
  | .startTimeout => Sys2Proof.Machine.execStartTimeout s
  | .prsntSeated => Sys2Proof.Machine.execPrsntSeated s
  | .prsntRelease => Sys2Proof.Machine.execPrsntRelease s
  | .prsntReturn => Sys2Proof.Machine.execPrsntReturn s
  | .scrubComplete => Sys2Proof.Machine.execScrubComplete s
  | .zeroFillDone => Sys2Proof.Machine.execZeroFillDone s
  | .quiesceComplete => Sys2Proof.Machine.execQuiesceComplete s
  | .quiesceTimeout => Sys2Proof.Machine.execQuiesceTimeout s
  | .trialExpiry => Sys2Proof.Machine.execTrialExpiry s
  | .writeBlockTimeout => Sys2Proof.Machine.execWriteBlockTimeout s
  | .mgmtLost => Sys2Proof.Machine.execMgmtLost s
  | .lostCapApply => Sys2Proof.Machine.execLostCapApply s
  | .eventResend => Sys2Proof.Machine.execEventResend s
  | .idcode => Sys2Proof.Machine.execIdcode s
  | .aonStatus => Sys2Proof.Machine.execAonStatus s
  | .aonSupplyLoss => Sys2Proof.Machine.execAonSupplyLoss s
  | .enMainActedOn => Sys2Proof.Machine.execEnMainActedOn s

end Sys2Proof.Machine
end

