-- ==== Sys2Proof/Machine/Idle.lean ====
section
/-! DEFINITION. What one nanosecond without a command does. -/

namespace Sys2Proof.Machine

/-- One tick: the count moves on by 1 ns, and local time by the ns that takes (R28, R38; log entry 1). -/
def idleTick (s : State) : State := { s with dev := advanceCount 1 s.dev }

end Sys2Proof.Machine
end

