-- ==== Sys2Proof/Safety.lean ====
section
/-! DEFINITION. What a safe step is, and the words the claims are written in: when a bundle is ready to issue, what a
landing keeps when one issues, which counters grow. -/

namespace Sys2Proof

open Machine

/-- A step that answers a next state whose memory keeps its canonical form. -/
def SafeStep (s : Machine.State) : Prop :=
  ∃ t, Machine.step s = .next t ∧ t.mem.wf = true

/-- The command completes: it answers a next state, and that state is as `P` says. -/
def Completes (i : Instr) (s : Machine.State) (P : Machine.State → Prop) : Prop :=
  ∃ t, Machine.exec i s = .next t ∧ P t

/-! ### Frames -/

/-- The parts of the state: memory, and the blocks of the device. -/
inductive Part where
  | mem | lnd | memc | rtr | nic | tim | ports | pwr | rst | health | kmd | fw | hif | ls | jtag | pins | cnt | regs | freeCtr
  deriving DecidableEq, Repr

/-- Nothing but the parts named changes; the queue and the fuses never do. -/
def Only (l : List Part) (s t : Machine.State) : Prop :=
  t = {
    mem := if Part.mem ∈ l then t.mem else s.mem
    pending := s.pending
    dev := { s.dev with
      lnd := if Part.lnd ∈ l then t.dev.lnd else s.dev.lnd
      memc := if Part.memc ∈ l then t.dev.memc else s.dev.memc
      rtr := if Part.rtr ∈ l then t.dev.rtr else s.dev.rtr
      nic := if Part.nic ∈ l then t.dev.nic else s.dev.nic
      tim := if Part.tim ∈ l then t.dev.tim else s.dev.tim
      ports := if Part.ports ∈ l then t.dev.ports else s.dev.ports
      pwr := if Part.pwr ∈ l then t.dev.pwr else s.dev.pwr
      rst := if Part.rst ∈ l then t.dev.rst else s.dev.rst
      health := if Part.health ∈ l then t.dev.health else s.dev.health
      kmd := if Part.kmd ∈ l then t.dev.kmd else s.dev.kmd
      fw := if Part.fw ∈ l then t.dev.fw else s.dev.fw
      hif := if Part.hif ∈ l then t.dev.hif else s.dev.hif
      ls := if Part.ls ∈ l then t.dev.ls else s.dev.ls
      jtag := if Part.jtag ∈ l then t.dev.jtag else s.dev.jtag
      pins := if Part.pins ∈ l then t.dev.pins else s.dev.pins
      cnt := if Part.cnt ∈ l then t.dev.cnt else s.dev.cnt
      regs := if Part.regs ∈ l then t.dev.regs else s.dev.regs
      freeCtr := if Part.freeCtr ∈ l then t.dev.freeCtr else s.dev.freeCtr } }

/-- One event more: numbered, stamped with the present count, time quality and module state, and kept while the buffer
of 64 has room (R503, R504). -/
def EventSent (code unit : Nat) (detail : W64) (d e : Dev) : Prop :=
  e.kmd.evNext = d.kmd.evNext + 1 ∧
    e.kmd.ev = (if d.kmd.ev.length < 64 then
      d.kmd.ev ++ [⟨d.kmd.evNext, code, unit, d.tim.count, timeQuality d.tim, d.health.state.code, detail⟩] else d.kmd.ev)

/-! ### Counters (R15) -/

/-- A counter after one count: it stays at all ones once there. -/
def bumped (v : W64) : W64 := if v = BitVec.allOnes 64 then v else v + 1

/-- Exactly the counters at these offsets grow, each by one count; every other counter keeps its value. -/
def CountersGrow (offs : List Nat) (d e : Dev) : Prop :=
  ∀ off, cntGet e off = if off ∈ offs then bumped (cntGet d off) else cntGet d off

/-! ### Issue of a bundle (R85, R86) -/

/-- Every resource may be read or written in the landing's present cycle, and no source is marked bad. -/
def operandsReady (x : Landing) (reads writes : List Nat) : Bool :=
  reads.all (resOk x x.pipe.cyc) && writes.all (resOk x x.pipe.cyc) && (badRead x.regs reads).isNone

/-- The landing runs and nothing outside the bundle's own operands keeps it from issuing in this cycle: no overdue
tracker, no lost cycle, the previous stop bit satisfied, no hardware error, no core reset asked for. -/
def issueOpen (l : Nat) (c : CycleIn) (s : Machine.State) : Bool :=
  let x := lndGet s.dev l
  (x.phase == .running || x.phase == .waiting) && !(lsFrozen s.dev x.kern.ctx) && (trkOverdue x).isNone &&
    x.pipe.lost == 0 && decide (x.pipe.pc < 4096) && stopOk x x.pipe.cyc && x.pipe.xcross.isNone &&
    decide (x.trk.length ≤ 32) && !c.parity && !c.ifetch && !c.internal && !s.dev.rst.clocksStopped &&
    !s.dev.rst.hangPending

/-- Ballast is counted in this cycle (R134): the limiter has some, the flight is free, and the bundle gives it no matrix
operation. -/
def ballastCount (l : Nat) (c : CycleIn) (matrix : Bool) (s : Machine.State) : List Nat :=
  let x := lndGet s.dev l
  if c.ballast && decide (0 < s.dev.pwr.lim.ballast) && decide (x.pipe.flightFree ≤ x.pipe.cyc) && !matrix &&
      !s.dev.rst.coreBusy && landUp s.dev l then
    [fltBase l + 0x50] else []

/-- The trackers of a landing once the image, if any, that the cycle lets go has left its output buffer (R137). -/
def trkNow (c : CycleIn) (x : Landing) : List Tracker := if c.imgOut then imageLeaves x.trk else x.trk

/-- What every issue leaves alone: the instruction store, the kernel and the fault registers of its landing, and the
kernel's trackers where it starts nothing. -/
def KernelKept (l : Nat) (c : CycleIn) (s t : Machine.State) : Prop :=
  let x := lndGet s.dev l
  let y := lndGet t.dev l
  y.imem = x.imem ∧ y.flt = x.flt ∧ y.kern = x.kern ∧ y.trk = trkNow c x ∧ y.trkNext = x.trkNext

/-- Nothing but the landings and the counters changes: memory, the queue and every other block stay as they are. -/
def OnlyLandings (s t : Machine.State) : Prop :=
  t = { s with dev := { s.dev with lnd := t.dev.lnd, cnt := t.dev.cnt } }

/-- Nothing but landing `l` and these counters changes. -/
def OnlyLanding (l : Nat) (counts : List Nat) (s t : Machine.State) : Prop :=
  OnlyLandings s t ∧ (∀ m, m ≠ l → lndGet t.dev m = lndGet s.dev m) ∧ CountersGrow counts s.dev t.dev

/-- The counters that a landing's issue grows: cycles, issues, and ballast where it is counted (R88, R134). -/
def issueCounts (l : Nat) (c : CycleIn) (matrix : Bool) (s : Machine.State) : List Nat :=
  [lndBase l + 0x100, lndBase l + 0x108] ++ ballastCount l c matrix s

/-- The landing goes on: it runs, one landing cycle later, at bundle `next`, with `lost` cycles still to lose. -/
def GoesOn (l next lost : Nat) (s t : Machine.State) : Prop :=
  let x := lndGet s.dev l
  let y := lndGet t.dev l
  y.phase = .running ∧ y.pipe.pc = next ∧ y.pipe.cyc = x.pipe.cyc + 1 ∧ y.pipe.lost = lost ∧ y.pipe.noIssue = 0

/-- The scalar registers a landing operation may write; no other register of the landing changes. -/
def WritesOnlyS (x y : Landing) (writes : List (Nat × W64)) : Prop :=
  (∀ r, regS y.regs r = match writes.find? (fun w => w.1 == r) with
    | some w => w.2
    | none => regS x.regs r) ∧
  y.regs = { x.regs with s := y.regs.s, bad := y.regs.bad }

/-- The first cycle after the present one in which a resource may be read or written, as the pipeline holds it. -/
def readyFrom (x y : Landing) (res : Nat) : Nat := max (x.pipe.cyc + 1) (spGet 0 y.pipe.rdy res)

/-! ### The scalar operations (R70, R156) -/

/-- A scalar operation meets no hold in this cycle: its landing is open for issue, its bundle is legal, and, unless its
predicate turns it off, its operands are ready and good and the divider is free for a divide. -/
def readyS (l : Nat) (c : CycleIn) (k : OpCtl) (op : BitVec 8) (f : SOps) (s : Machine.State) : Bool :=
  let x := lndGet s.dev l
  issueOpen l c s && bundleLegal (bundleS k op f) && operandsReady x (pselRes k.psel) [] &&
    (!(pselOn x.regs k.psel) || (operandsReady x (sSrc ⟨op, f⟩) (sDst ⟨op, f⟩) &&
      (!(isDiv ⟨op, f⟩) || decide (x.pipe.divFree ≤ x.pipe.cyc))))

/-- A value as the w32 bit leaves it: its low half, sign-extended (R69, R156). -/
def halfWord (w32 : Bool) (v : W64) : W64 := if w32 then (v.setWidth 32).signExtend 64 else v

/-- The second source of a scalar operation: the immediate or register sb (R67, R69). -/
def srcB (k : OpCtl) (f : SOps) (x : Landing) : W64 :=
  if f.useimm then immS k.ext f.imm20 else regS x.regs f.sb.toNat

/-- The issue of a lone bundle that changes registers of its landing and nothing else beside the counts of its cycle. -/
def IssuesAlone (l : Land) (c : CycleIn) (matrix : Bool) (next lost : Nat) (more : List Nat) (s t : Machine.State) :
    Prop :=
  OnlyLanding l.val (issueCounts l.val c matrix s ++ more) s t ∧ KernelKept l.val c s t ∧ GoesOn l.val next lost s t

/-- The predicate registers a landing operation may write; p0 ignores the write; no other register changes. -/
def WritesOnlyP (x y : Landing) (pd : Nat) (v : W64) : Prop :=
  (∀ q, regP y.regs q = if q = pd ∧ q ≠ 0 then v else regP x.regs q) ∧ y.regs = { x.regs with p := y.regs.p }

/-- A compare: its constructor, its opcode and its condition on words of a width (R70). -/
structure CmpRow where
  con : Land → CycleIn → OpCtl → SOps → Instr
  op : BitVec 8
  holds : (n : Nat) → BitVec n → BitVec n → Bool

def cmpRows : List CmpRow := [
  ⟨.peq, 0x0D, fun _ a b => a == b⟩,
  ⟨.plt, 0x0E, fun _ a b => a.slt b⟩,
  ⟨.pltu, 0x0F, fun _ a b => a.ult b⟩]

/-- An operation on two predicates (R70). -/
structure PredRow where
  con : Land → CycleIn → OpCtl → SOps → Instr
  op : BitVec 8
  val : W64 → W64 → W64

def predRows : List PredRow := [
  ⟨.pand, 0x1A, fun a b => a &&& b⟩,
  ⟨.por, 0x1B, fun a b => a ||| b⟩,
  ⟨.pandn, 0x1C, fun a b => a &&& ~~~b⟩]

/-- A scalar operation with two sources: its constructor, its opcode, its result on words of a width, and the least and
the greatest latency of R70 by the w32 bit. -/
structure AluRow where
  con : Land → CycleIn → OpCtl → SOps → Instr
  op : BitVec 8
  val : (n : Nat) → BitVec n → BitVec n → BitVec n
  lat : Bool → Nat × Nat

/-- The result with the w32 bit: on the low halves, sign-extended (R69, R156). -/
def AluRow.result (r : AluRow) (w32 : Bool) (a b : W64) : W64 :=
  if w32 then (r.val 32 (a.setWidth 32) (b.setWidth 32)).signExtend 64 else r.val 64 a b

/-- The scalar operations with a scalar result of two sources, as R70 gives them. -/
def aluRows : List AluRow := [
  ⟨.add, 0x01, fun _ a b => a + b, fun _ => (1, 1)⟩,
  ⟨.sub, 0x02, fun _ a b => a - b, fun _ => (1, 1)⟩,
  ⟨.and, 0x03, fun _ a b => a &&& b, fun _ => (1, 1)⟩,
  ⟨.or, 0x04, fun _ a b => a ||| b, fun _ => (1, 1)⟩,
  ⟨.xor, 0x05, fun _ a b => a ^^^ b, fun _ => (1, 1)⟩,
  ⟨.shl, 0x06, fun n a b => a <<< (b.toNat % n), fun _ => (1, 1)⟩,
  ⟨.shr, 0x07, fun n a b => a >>> (b.toNat % n), fun _ => (1, 1)⟩,
  ⟨.sar, 0x08, fun n a b => a.sshiftRight (b.toNat % n), fun _ => (1, 1)⟩,
  ⟨.min, 0x09, fun _ a b => if a.slt b then a else b, fun _ => (1, 1)⟩,
  ⟨.max, 0x0A, fun _ a b => if a.slt b then b else a, fun _ => (1, 1)⟩,
  ⟨.minu, 0x0B, fun _ a b => if a.ult b then a else b, fun _ => (1, 1)⟩,
  ⟨.maxu, 0x0C, fun _ a b => if a.ult b then b else a, fun _ => (1, 1)⟩,
  ⟨.mul, 0x10, fun _ a b => a * b, fun _ => (3, 3)⟩,
  ⟨.mulh, 0x11, fun n a b => (a.signExtend (2 * n) * b.signExtend (2 * n)).extractLsb' n n, fun _ => (3, 3)⟩,
  ⟨.mulhu, 0x12, fun n a b => (a.setWidth (2 * n) * b.setWidth (2 * n)).extractLsb' n n, fun _ => (3, 3)⟩,
  ⟨.div, 0x13, fun n a b => if b = 0 then BitVec.allOnes n else a.sdiv b, fun w => (1, if w then 22 else 38)⟩,
  ⟨.divu, 0x14, fun n a b => if b = 0 then BitVec.allOnes n else a / b, fun w => (1, if w then 22 else 38)⟩,
  ⟨.rem, 0x15, fun _ a b => if b = 0 then a else a.srem b, fun w => (1, if w then 22 else 38)⟩,
  ⟨.remu, 0x16, fun _ a b => if b = 0 then a else a % b, fun w => (1, if w then 22 else 38)⟩]

/-- The operations of the scalar slots that leave the flow of control alone and neither load nor wait, with their
opcodes (R70). -/
def plainRows : List ((Land → CycleIn → OpCtl → SOps → Instr) × BitVec 8) :=
  aluRows.map (fun r => (r.con, r.op)) ++ cmpRows.map (fun r => (r.con, r.op)) ++ predRows.map (fun r => (r.con, r.op)) ++
    [(.movi, 0x18), (.mfs, 0x2E), (.mts, 0x2F), (.drain, 0x39), (.wait, 0x38), (.brk, 0x3E), (.exit, 0x3F),
      (.brr, 0x31), (.ret, 0x33)]

/-- What mfs returns (R99), by register number: after the count of the present cycle and before that of the issue. -/
def specialValue (l n : Nat) (s : Machine.State) : W64 :=
  let x := lndGet s.dev l
  if n = 0x00 then BitVec.ofNat 64 (logicalOf s.dev l)
  else if n = 0x01 then BitVec.ofNat 64 l
  else if n = 0x02 then BitVec.ofNat 64 (galleryOf l)
  else if n = 0x03 then BitVec.ofNat 64 x.kern.nland
  else if n = 0x04 then BitVec.ofNat 64 x.kern.rank
  else if n = 0x05 then BitVec.ofNat 64 x.kern.ctx
  else if n = 0x06 then BitVec.ofNat 64 x.kern.seq
  else if n = 0x08 then s.dev.tim.count
  else if n = 0x0A then bumped (cntGet s.dev (lndBase l + 0x100))
  else if n = 0x0B then cntGet s.dev (lndBase l + 0x108)
  else if n = 0x10 then x.regs.waitTmo
  else if n = 0x11 then BitVec.ofNat 64 (32 - x.trk.length)
  else if n = 0x12 then x.kern.param
  else x.regs.rngKey

/-- The move operations with their opcodes (R80). -/
def moveRows : List ((Land → CycleIn → OpCtl → XOps → Instr) × BitVec 8) :=
  [(.xcopy, 1), (.xfill, 2), (.xunpack, 3), (.xstream, 4), (.xnic, 5), (.xtrig, 6), (.xtopk, 7), (.xctr, 8)]

/-- The matrix operations with their opcodes (R77). -/
def matrixRows : List ((Land → CycleIn → OpCtl → MOps → Instr) × BitVec 8) :=
  [(.mload, 1), (.mmac, 2), (.mzero, 3), (.mstore, 4)]

/-! ### The vector, matrix and move operations -/

/-- A vector operation meets no hold in this cycle. -/
def readyV (l : Nat) (c : CycleIn) (k : OpCtl) (op : BitVec 8) (f : VOps) (s : Machine.State) : Bool :=
  let x := lndGet s.dev l
  issueOpen l c s && bundleLegal (bundleV k op f) && operandsReady x (pselRes k.psel) [] &&
    operandsReady x (vSrc ⟨op, f⟩) (vDst ⟨op, f⟩) && (op != 0x38 || decide (x.pipe.sfuFree ≤ x.pipe.cyc))

/-- A matrix operation meets no hold in this cycle: its flight, tile and buffers are free besides (R85, R132, R137). -/
def readyM (l : Nat) (c : CycleIn) (k : OpCtl) (op : BitVec 8) (f : MOps) (s : Machine.State) : Bool :=
  let x := lndGet s.dev l
  issueOpen l c s && bundleLegal (bundleM k op f) && operandsReady x (pselRes k.psel) [] &&
    (!(pselOn x.regs k.psel) || (operandsReady x (mSrc ⟨op, f⟩) (mDst ⟨op, f⟩) &&
      !(mHold { x with trk := trkNow c x } x.pipe.cyc ⟨op, f⟩ (flightShut s.dev l c)) && !(structHolds s l (bundleM k op f)).1))

/-- A move operation meets no hold in this cycle. -/
def readyX (l : Nat) (c : CycleIn) (k : OpCtl) (op : BitVec 8) (f : XOps) (s : Machine.State) : Bool :=
  let x := lndGet s.dev l
  issueOpen l c s && bundleLegal (bundleX k op f) && operandsReady x (pselRes k.psel) [] &&
    (!(pselOn x.regs k.psel) || operandsReady x (xSrc ⟨op, f⟩) [])

/-- The vector registers a landing operation may write; no other register changes. -/
def WritesOnlyV (x y : Landing) (vd : Nat) (v : VWord) : Prop :=
  (∀ r, regV y.regs r = if r = vd then v else regV x.regs r) ∧
    y.regs = { x.regs with v := y.regs.v, bad := y.regs.bad }

/-- An element of a vector register that a vector operation writes: enabled elements get a value, the others keep theirs
or, with the zero bit, become 0 (R65, R66). -/
def laneResult (ty : Nat) (mask : W64) (zero : Bool) (old v i : Nat) : Nat :=
  if mask.getLsbD (i * tyW ty / 32) then v else if zero then 0 else old

/-- An element-by-element vector operation (R73): its constructor, its opcode, its element, and its latency for float and
for integer types. -/
structure VecRow where
  con : Land → CycleIn → OpCtl → VOps → Instr
  op : BitVec 8
  elem : LRegs → VOps → Nat → Nat
  lat : Bool → Nat

/-- An element of the operation of an opcode on the elements of va, vb and vc in one place. -/
def onElems (op : Nat) (r : LRegs) (f : VOps) (i : Nat) : Nat :=
  let e (n : BitVec 6) : Nat := vElem (tyW f.ty.toNat) (regV r n.toNat) i
  vElemOp op f.ty.toNat (rndOf f.rnd) f.sat (e f.va) (e f.vb) (e f.vc)

/-- The element-by-element vector operations of R73. -/
def vecRows : List VecRow := [
  ⟨.vadd, 0x01, onElems 0x01, fun fl => if fl then 4 else 2⟩,
  ⟨.vsub, 0x02, onElems 0x02, fun fl => if fl then 4 else 2⟩,
  ⟨.vmul, 0x03, onElems 0x03, fun fl => if fl then 4 else 2⟩,
  ⟨.vfma, 0x04, onElems 0x04, fun fl => if fl then 4 else 3⟩,
  ⟨.vmin, 0x05, onElems 0x05, fun _ => 2⟩,
  ⟨.vmax, 0x06, onElems 0x06, fun _ => 2⟩,
  ⟨.vabs, 0x07, onElems 0x07, fun _ => 2⟩,
  ⟨.vneg, 0x08, onElems 0x08, fun _ => 2⟩,
  ⟨.vand, 0x09, onElems 0x09, fun _ => 2⟩,
  ⟨.vor, 0x0A, onElems 0x0A, fun _ => 2⟩,
  ⟨.vxor, 0x0B, onElems 0x0B, fun _ => 2⟩,
  ⟨.vshl, 0x0C, onElems 0x0C, fun _ => 2⟩,
  ⟨.vshr, 0x0D, onElems 0x0D, fun _ => 2⟩,
  ⟨.vsar, 0x0E, onElems 0x0E, fun _ => 2⟩,
  ⟨.vsel, 0x11, fun r f i => if (regP r f.pd.toNat).getLsbD (i * tyW f.ty.toNat / 32)
    then vElem (tyW f.ty.toNat) (regV r f.va.toNat) i else vElem (tyW f.ty.toNat) (regV r f.vb.toNat) i, fun _ => 2⟩,
  ⟨.vperm, 0x20, fun r f i => vElem (tyW f.ty.toNat) (regV r f.va.toNat)
    (vElem (tyW f.ty.toNat) (regV r f.vb.toNat) i % tyCount f.ty.toNat), fun _ => 3⟩,
  ⟨.vbcast, 0x21, fun r f _ => (regS r f.sa.toNat).toNat % 2 ^ tyW f.ty.toNat, fun _ => 2⟩]

/-- The integer operations of R73 on elements of a width, by signedness, without saturation. -/
def intElems : List (Nat × (Bool → (n : Nat) → BitVec n → BitVec n → BitVec n → BitVec n)) := [
  (0x01, fun _ _ a b _ => a + b),
  (0x02, fun _ _ a b _ => a - b),
  (0x03, fun _ _ a b _ => a * b),
  (0x04, fun _ _ a b c => a * b + c),
  (0x05, fun sg _ a b _ => if (if sg then a.slt b else a.ult b) then a else b),
  (0x06, fun sg _ a b _ => if (if sg then a.slt b else a.ult b) then b else a),
  (0x07, fun sg _ a _ _ => if sg && a.msb then -a else a),
  (0x08, fun _ _ a _ _ => -a),
  (0x09, fun _ _ a b _ => a &&& b),
  (0x0A, fun _ _ a b _ => a ||| b),
  (0x0B, fun _ _ a b _ => a ^^^ b),
  (0x0C, fun _ n a b _ => a <<< (b.toNat % n)),
  (0x0D, fun _ n a b _ => a >>> (b.toNat % n)),
  (0x0E, fun _ n a b _ => a.sshiftRight (b.toNat % n))]

/-- A range as an operation names it: none for length 0 (R81), else translated and checked. -/
def namedRange (s : Machine.State) (l va n : Nat) (wr : Bool) (win : Nat) : Except (Nat × Nat) (Nat × Nat) :=
  if n = 0 then .ok (0, 0) else reachRange s l va n wr win

/-- An asynchronous operation has started: one tracker more, with the operation's ranges, destinations, notification and
the present cycle; no register and no byte of memory has changed, and the landing goes on (R89, R90). -/
def Starts (l : Land) (c : CycleIn) (o : StartOp) (s t : Machine.State) : Prop :=
  let x := lndGet s.dev l
  let y := lndGet t.dev l
  (∃ k : Tracker, y.trk.getLast? = some k ∧ k.id = x.trkNext ∧ k.rngs = o.rngs ∧ k.indirect = o.indirect ∧
    k.dst = o.dst ∧ k.op = o.op ∧ k.notify = o.notify ∧ k.ready = o.ready ∧ k.alloc = x.pipe.cyc) ∧
  y.trk.length = x.trk.length + 1 ∧ (∀ k ∈ trkNow c x, k.id ≠ x.trkNext → k ∈ y.trk) ∧
  y.trkNext = x.trkNext + 1 ∧ y.regs = x.regs ∧ y.imem = x.imem ∧ y.kern = x.kern ∧ t.mem = s.mem ∧
  t.pending = s.pending ∧ (∀ m, m ≠ l.val → lndGet t.dev m = lndGet s.dev m) ∧ GoesOn l (x.pipe.pc + 1) 0 s t

/-- The operation a plan starts, where it meets neither fault nor tracker nor page boundary. -/
def startOf (x : Landing) (p : Plan) : Option StartOp :=
  if p.fault.isNone && p.cross == 0 && !(trkConflict x p.acc) && decide (x.trk.length < 32) then p.start else none

/-! ### Cells at the NIC (R244, R259) -/

/-- A cell passes the checks of R259 that need no address, at context slot `n`: its k3 check sum, an active context of
its generation that is not being scrubbed, and no replay of a cell applied before. -/
def cellPasses (c : Cell) (n : Nat) (d : Dev) : Prop :=
  c.bounce = false ∧ k3Check c d = none ∧ slotOfId d c.ctx.toNat = some n ∧ scrubbing d n = false ∧
    ctxWord d n % 16 = c.gen.toNat ∧ (c.replay = false ∨ cellName c ∉ d.nic.expFilter)

/-- The acknowledgement of a cell waits in the buffer or is on its way (R244). -/
def AckOwed (c : Cell) (d : Dev) : Prop :=
  (∃ e ∈ d.nic.acks, e.src = c.src.toNat ∧ e.ctx = c.ctx.toNat ∧ e.gen = c.gen.toNat ∧ c.seq.toNat ∈ e.seqs) ∨
    (∃ a ∈ d.nic.txq, a.op = 0xC ∧ a.dst = c.src ∧ a.ctx = c.ctx ∧ a.gen = c.gen)

/-- No trigger is armed on a counter. -/
def untriggered (d : Dev) (n : Nat) : Bool := d.nic.trig.all (fun t => trigCtr t.desc != n)

/-- A counter after one increment; it stays at all ones, and a poisoned increment sets the error flag (R325). -/
def ctrBumped (v : Ctr) (poison : Bool) : Ctr :=
  ⟨if v.val = BitVec.allOnes 48 then v.val else v.val + 1, v.err || poison⟩

/-- The item of a descriptor in progress that has more cells to come than the one now answered. -/
def itemWaits (d : Dev) (id : Nat) (x : Item) : Prop := itemFind d id = some x ∧ x.confirmed + x.failed + 1 < x.cells

/-! ### Ports (R281 to R306) -/

/-- The port tiles run, and no Express cell waits in the NIC, at the port's output or to be routed again, so that no exit
fails one (R303). -/
def portsRun (d : Dev) (p : Nat) : Bool :=
  hubUp d && decide (5 ≤ d.rst.step) && d.nic.expq.isEmpty && d.nic.txq.all (fun c => c.cls != 0) &&
    (spGet [] d.rtr.outq p).all (fun c => c.2.cls != 0) && d.rtr.back.all (fun c => c.2.cls != 0)

/-- What a change of a port's state may touch beside the port: events, degraded causes, the topology check. -/
def portParts : List Part := [.ports, .rtr, .kmd, .hif, .health, .rst, .nic, .cnt]

/-- A port stands in a state, with its cause. -/
def portIn (st : PState) (cause p : Nat) (d : Dev) : Prop := (portGet d p).st = st ∧ (portGet d p).cause = cause

/-- No lane of the port is one retrain away from retirement (R293). -/
def lanesFresh (x : Port) : Bool := (List.range 4).all (fun l => decide ((laneGet x l).recent.length < 7))

/-- The cells of a port's unacknowledged units (R292). -/
def unacked (x : Port) : Nat := ((x.retry.map (fun e => (slotCells e.slots).length)).sum)

/-- A counter after `n` counts; it stays at all ones once there. -/
def grown (v : W64) (n : Nat) : W64 := if v.toNat + n < 2 ^ 64 then v + BitVec.ofNat 64 n else BitVec.allOnes 64

/-! ### Reset and start (R419, R424, R454, R533) -/

/-- A start has begun: released, at BOOT, with the next incarnation, and counted (R419, R424, R426). -/
def StartBegun (s t : Machine.State) : Prop :=
  t.dev.health.state = .start ∧ t.dev.rst.phase = 0 ∧ t.dev.rst.held = false ∧ t.dev.rst.step = 10 ∧
    t.dev.rst.incarnation = s.dev.rst.incarnation + 1 ∧
    cntGet t.dev (rstBase + 0x200) = bumped (cntGet s.dev (rstBase + 0x200))

/-- Every port is DISABLED or stays RETIRED (R454). -/
def portsDown (d : Dev) : Prop := ∀ p, p < 16 → (portGet d p).st = .disabled ∨ (portGet d p).st = .retired

/-- The host interface alone has been reset, counted: registers and rings as after reset, transfers gone, kernels going on
without an entry, and nothing else of the module touched (R413, R533, R553). -/
def HostReset (s t : Machine.State) : Prop :=
  Only [.mem, .memc, .rst, .hif, .regs, .cnt] s t ∧ t.dev.hif.err = 0 ∧ t.dev.hif.linkUp = false ∧
    t.dev.hif.out = s.dev.hif.out ∧
    (∀ slot ring, (ringGet t.dev slot ring).cfg = ringDefault.cfg ∧ (ringGet t.dev slot ring).fetched = [] ∧
      ∀ k, (ringGet t.dev slot ring).run = some k → lKind k.desc = 0 ∧ k.noEntry = true) ∧
    cntGet t.dev (rstBase + 0x228) = bumped (cntGet s.dev (rstBase + 0x228))

/-! ### Frames of the management link (R488 to R501) -/

/-- A frame is heard, well formed, authentic, new and not turned away as busy (R488, R491, R494 to R496). -/
def Heard (f : Frame) (d : Dev) : Prop :=
  kmdHears d = true ∧ frameMine f d = true ∧ frameOk f = true ∧ frameAuth f d = true ∧ f.queued < 8 ∧
    keptAnswer f d = none ∧ bootRefuses f d = false

/-- The request has been taken up, and its answer kept (R494, R495). -/
def Answered (f : Frame) (body : List Byte) (t : Machine.State) : Prop :=
  t.dev.kmd.lastCtr = f.counter ∧ t.dev.kmd.answers.getLast? =
    some ⟨f.reqId, f.mtype.toNat, frameKey f / 256, frameKey f % 256, body⟩

/-- A heard WRITE of an object that passes every check of R17. -/
def WriteTaken (f : Frame) (key : Nat) (d : Dev) : Prop :=
  Heard f d ∧ f.mtype = 2 ∧ frameKey f = key ∧ writeAbort (writeReq f) d = (0, 0)

/-- The value a WRITE carries. -/
def wroteValue (f : Frame) : Nat := leNat (f.body.drop 16)

/-- The rows of the table that are frames, with the frames that are theirs. -/
def frameRows : List ((Frame → Instr) × (Frame → Bool)) := [
  (.acceptBackwardStep, (writes · 0x301003)), (.portRetrain, (writes · 0x440009)), (.laneUnretire, (writes · 0x44000B)),
  (.portEnable, (writes · 0x440001)), (.sensingClear, (writes · 0x240003)), (.pplW, (writes · 0x210002)),
  (.ffMhz, (writes · 0x212001)), (.resetSystem, (writes · 0x602001)), (.resetCore, (writes · 0x602002)),
  (.scrubContext, (writes · 0x602003)), (.admitModule, (writes · 0x411002)), (.portAdmit, (writes · 0x411003)),
  (.routeTable, fun f => (f.mtype == 2 || f.mtype == 4) && frameKey f == 0x420001), (.routePatch, (writes · 0x420002)),
  (.ilvApply, (writes · 0x510011)), (.defectRemove, (writes · 0x610009)), (.oosClear, (writes · 0x620004)),
  (.quiesceRequest, (writesValue · 0x600002 4)), (.maintRequest, (writesValue · 0x600002 5)),
  (.resumeRequest, (writesValue · 0x600002 2)), (.healthConfirm, (writes · 0x803001)), (.lsStart, (writes · 0xA00003)),
  (.lsStop, (writes · 0xA00004)), (.kmdRead, fun f => f.mtype != 2 && f.mtype != 3 && f.mtype != 4 && f.mtype != 6),
  (.kmdWrite, (·.mtype == 2)), (.readBlock, (·.mtype == 3)), (.writeBlock, (·.mtype == 4)), (.heartbeat, (·.mtype == 6))]

/-- Scalar objects whose write does no more than store the value. -/
def storedKeys : List Nat := [
  0x101001, 0x301001, 0x301002, 0x301004, 0x605001, 0x605002, 0x530003, 0x420003, 0x420005, 0x420007, 0x440003,
  0x440005, 0x440006, 0x440007, 0x440008, 0x450001, 0x450002, 0x210001, 0x210003, 0x210004, 0x210005, 0x210006, 0x211001,
  0x220001, 0x220002, 0x230001, 0x230003, 0x411001, 0x601001, 0x601002, 0x601003, 0x601004, 0x620005, 0x604001, 0x604002,
  0xA00001, 0xA00002, 0x600003, 0x700001]

/-! ### The host interface (R535, R536, R543, R551) -/

/-- Every ring but one is as it was. -/
def OtherRings (slot ring : Nat) (d e : Dev) : Prop :=
  ∀ n r, n < 32 → r < 8 → ¬(n = slot ∧ r = ring) → ringGet e n r = ringGet d n r

/-- The completion entry that a ring with the configuration `q` sends for a descriptor (R549, R551). -/
def entrySent (d : Dev) (ring : Nat) (q : Ring) (idx : W32) (desc : BitVec 1024) (x : CplInfo) : HostOut :=
  .write (q.cqBase + BitVec.ofNat 64 (32 * (idx.toNat % 2 ^ ringLog q))) (entryBytes d ring q idx desc x) false

/-- The window of BAR2 that holds an offset is valid and the access lies in stack or mezzanine memory (R536, R537). -/
def bar2Reaches (d : Dev) (off len : Nat) : Bool :=
  let w := spGet 0 d.hif.win (off / 2 ^ 32)
  let pa := (w.extractLsb' 32 16).toNat * 2 ^ 32 + off % 2 ^ 32
  decide (off < 2 ^ 36) && w.getLsbD 63 && d.health.state != .start && tierDram (tierOf pa) && (keyOf d pa).isSome &&
    (keyOf d (pa + (len - 1))).isSome

/-- A write turned away leaves a bit of HIF_ERR and no more (R13, R14). -/
def TurnedAway (bit : Nat) (s t : Machine.State) : Prop := Only [.hif] s t ∧ t.dev.hif.err.getLsbD bit = true

end Sys2Proof
end

