-- ==== Sys2Proof/Certificates/Slice0/Obligations.lean ====
section
/-! DEFINITION. The statements for the provers. -/

open Sys2Proof Sys2Proof.Machine

/-! ### The queue and time -/

/-- A command at the front of the queue runs with the rest of the queue: the model's form of a block. -/
def Obligations.StepRunsFront : Prop :=
  ∀ (c : Instr) (s : State), step { s with pending := c :: s.pending } = exec c s ∧ ∃ t, exec c s = .next t

/-- An idle step changes the rack-time unit alone (the model's choice, log entry 1). -/
def Obligations.IdleStep : Prop :=
  ∀ s : State, s.pending = [] → ∃ t, step s = .next t ∧ t = { s with dev := { s.dev with tim := t.dev.tim } } ∧
    (hubUp s.dev = true → t.dev.tim.count = s.dev.tim.count + 1 ∧ s.dev.tim.now ≤ t.dev.tim.now) ∧
    (hubUp s.dev = false → t.dev.tim = { s.dev.tim with now := s.dev.tim.now + 1 })

/-! ### Scalar operations (R65 to R70, R85 to R87, R96 to R104, R156) -/

/-- R69, R70 and R156 over every state and operand. -/
def Obligations.ScalarArithmetic : Prop :=
  ∀ row ∈ aluRows, ∀ (l : Land) (c : CycleIn) (k : OpCtl) (f : SOps) (s : State),
    readyS l c k row.op f s = true → pselOn (lndGet s.dev l).regs k.psel = true →
    Completes (row.con l c k f) s (fun t =>
      let x := lndGet s.dev l
      let y := lndGet t.dev l
      IssuesAlone l c false (x.pipe.pc + 1) 0 [] s t ∧
      WritesOnlyS x y [(f.sd.toNat, row.result f.w32 (regS x.regs f.sa.toNat) (srcB k f x))] ∧
      x.pipe.cyc + (row.lat f.w32).1 ≤ readyFrom x y f.sd.toNat ∧
      readyFrom x y f.sd.toNat ≤ x.pipe.cyc + (row.lat f.w32).2 ∧
      ∀ res, res ≠ f.sd.toNat → spGet 0 y.pipe.rdy res = spGet 0 x.pipe.rdy res)

/-- R60, R69 and R70 for the operations with a predicate result. -/
def Obligations.PredicateResults : Prop :=
  (∀ row ∈ cmpRows, ∀ (l : Land) (c : CycleIn) (k : OpCtl) (f : SOps) (s : State),
    readyS l c k row.op f s = true → pselOn (lndGet s.dev l).regs k.psel = true →
    Completes (row.con l c k f) s (fun t =>
      let x := lndGet s.dev l
      let a := regS x.regs f.sa.toNat
      let b := srcB k f x
      IssuesAlone l c false (x.pipe.pc + 1) 0 [] s t ∧
      WritesOnlyP x (lndGet t.dev l) (f.sd.toNat % 16)
        (if (if f.w32 then row.holds 32 (a.setWidth 32) (b.setWidth 32) else row.holds 64 a b) then BitVec.allOnes 64
         else 0))) ∧
  (∀ row ∈ predRows, ∀ (l : Land) (c : CycleIn) (k : OpCtl) (f : SOps) (s : State),
    readyS l c k row.op f s = true → pselOn (lndGet s.dev l).regs k.psel = true →
    Completes (row.con l c k f) s (fun t =>
      let x := lndGet s.dev l
      let v := row.val (regP x.regs (f.sa.toNat % 16)) (regP x.regs (f.sb.toNat % 16))
      IssuesAlone l c false (x.pipe.pc + 1) 0 [] s t ∧
      WritesOnlyP x (lndGet t.dev l) (f.sd.toNat % 16) (halfWord f.w32 v)))

/-- R67, R70, R99 and R100. -/
def Obligations.SpecialRegisters : Prop :=
  ∀ (l : Land) (c : CycleIn) (k : OpCtl) (f : SOps) (s : State),
    let x := lndGet s.dev l
    let n := f.imm20.toNat % 256
    pselOn x.regs k.psel = true →
    (readyS l c k 0x18 f s = true → Completes (.movi l c k f) s (fun t =>
      IssuesAlone l c false (x.pipe.pc + 1) 0 [] s t ∧
      WritesOnlyS x (lndGet t.dev l) [(f.sd.toNat,
        halfWord f.w32 (immS k.ext f.imm20))])) ∧
    (readyS l c k 0x2E f s = true → Completes (.mfs l c k f) s (fun t =>
      IssuesAlone l c false (x.pipe.pc + 1) 0 [] s t ∧
      WritesOnlyS x (lndGet t.dev l) ((f.sd.toNat, halfWord f.w32 (specialValue l n s)) ::
        (if n = 8 then [(f.sd.toNat + 1, BitVec.ofNat 64 (timeQuality s.dev.tim))] else [])))) ∧
    (readyS l c k 0x2F f s = true → Completes (.mts l c k f) s (fun t =>
      IssuesAlone l c false (x.pipe.pc + 1) 0 [] s t ∧
      (lndGet t.dev l).regs = (if n = 0x10 then { x.regs with waitTmo := halfWord f.w32 (regS x.regs f.sa.toNat) }
        else { x.regs with rngKey := halfWord f.w32 (regS x.regs f.sa.toNat) })))

/-- R66 and the last lines of R87 for the scalar slots. -/
def Obligations.PredicatedOffDoesNothing : Prop :=
  ∀ row ∈ plainRows, ∀ (l : Land) (c : CycleIn) (k : OpCtl) (f : SOps) (s : State),
    readyS l c k row.2 f s = true → pselOn (lndGet s.dev l).regs k.psel = false →
    Completes (row.1 l c k f) s (fun t =>
      IssuesAlone l c false ((lndGet s.dev l).pipe.pc + 1) 0 [] s t ∧ (lndGet t.dev l).regs = (lndGet s.dev l).regs)

/-- R70 and the table of R87. -/
def Obligations.Branches : Prop :=
  ∀ (l : Land) (c : CycleIn) (k : OpCtl) (f : SOps) (s : State),
    let x := lndGet s.dev l
    let on := pselOn x.regs k.psel
    let target : Int := x.pipe.pc + (immS k.ext f.imm20).toInt
    let hint := k.bhint == 1
    let inside := decide (0 ≤ target ∧ target < 4096)
    let next := if on then target.toNat else x.pipe.pc + 1
    let lost := if on == hint then (if on then 1 else 0) else 4
    let miss := if on == hint then [] else [lndBase l + 0x140]
    (readyS l c k 0x30 f s = true → (on = true → inside = true) → Completes (.br l c k f) s (fun t =>
      IssuesAlone l c false next lost miss s t ∧ (lndGet t.dev l).regs = x.regs)) ∧
    (readyS l c k 0x32 f s = true → (on = true → inside = true) → Completes (.call l c k f) s (fun t =>
      IssuesAlone l c false next lost miss s t ∧
      WritesOnlyS x (lndGet t.dev l) (if on then [(63, BitVec.ofNat 64 (x.pipe.pc + 1))] else []))) ∧
    (readyS l c k 0x31 f s = true → Completes (.brr l c k f) s (fun t =>
      IssuesAlone l c false (if on then (regS x.regs f.sa.toNat).toNat % 4096 else x.pipe.pc + 1) (if on then 4 else 0) [] s t ∧
      (lndGet t.dev l).regs = x.regs)) ∧
    (readyS l c k 0x33 f s = true → Completes (.ret l c k f) s (fun t =>
      IssuesAlone l c false (if on then (regS x.regs 63).toNat % 4096 else x.pipe.pc + 1) (if on then 4 else 0) [] s t ∧
      (lndGet t.dev l).regs = x.regs)) ∧
    (on = true → inside = false →
      (readyS l c k 0x30 f s = true → Completes (.br l c k f) s (fun t =>
        (lndGet t.dev l).phase = .halted ∧ (lndGet t.dev l).flt = ⟨true, 0, 0x01, x.pipe.pc, 0⟩ ∧
        (lndGet t.dev l).regs = x.regs ∧ t.mem = s.mem)) ∧
      (readyS l c k 0x32 f s = true → Completes (.call l c k f) s (fun t =>
        (lndGet t.dev l).phase = .halted ∧ (lndGet t.dev l).flt = ⟨true, 0, 0x01, x.pipe.pc, 0⟩ ∧
        (lndGet t.dev l).regs = x.regs ∧ t.mem = s.mem)))

/-- R96 and R98. -/
def Obligations.WaitsAndDrains : Prop :=
  ∀ (l : Land) (c : CycleIn) (k : OpCtl) (f : SOps) (s : State),
    let x := lndGet s.dev l
    let n := (regS x.regs f.sa.toNat).toNat % 4096
    let ctr := ctrGet s.dev n
    let reached := x.pipe.reach.getD x.pipe.cyc
    let expired := x.regs.waitTmo != 0 && decide (x.regs.waitTmo.toNat ≤ x.pipe.cyc - reached)
    let met := ctr.err || decide ((if f.w32 then (srcB k f x).toNat % 2 ^ 32 else (srcB k f x).toNat) ≤ ctr.val.toNat)
    let holds (t : State) : Prop :=
      OnlyLanding l ([lndBase l + 0x100, lndBase l + 0x138] ++ ballastCount l c false s) s t ∧ KernelKept l c s t ∧
        (lndGet t.dev l).regs = x.regs ∧ (lndGet t.dev l).phase = .waiting ∧ (lndGet t.dev l).pipe.pc = x.pipe.pc ∧
        (lndGet t.dev l).pipe.cyc = x.pipe.cyc + 1 ∧ (lndGet t.dev l).pipe.noIssue = 0
    k.second = false → pselOn x.regs k.psel = true → x.pipe.timedOut = false →
    (readyS l c k 0x38 f s = true → ctrOwned s.dev x.kern.slot n = true → (met || expired) = true →
      Completes (.wait l c k f) s (fun t =>
        IssuesAlone l c false (x.pipe.pc + 1) 0 [] s t ∧
        WritesOnlyS x (lndGet t.dev l) [(f.sd.toNat, halfWord f.w32
          (ctr.val.setWidth 64 ||| (if ctr.err then (1 : W64) <<< 63 else (0 : W64)) ||| (if met then (0 : W64) else (1 : W64) <<< 62)))])) ∧
    (readyS l c k 0x38 f s = true → ctrOwned s.dev x.kern.slot n = true → (met || expired) = false →
      Completes (.wait l c k f) s holds) ∧
    (readyS l c k 0x38 f s = true → ctrOwned s.dev x.kern.slot n = false → Completes (.wait l c k f) s (fun t =>
      (lndGet t.dev l).phase = .halted ∧ (lndGet t.dev l).flt = ⟨true, 0, 0x08, x.pipe.pc, 0⟩ ∧
      (lndGet t.dev l).regs = x.regs ∧ t.mem = s.mem)) ∧
    (readyS l c k 0x39 f s = true → x.trk = [] → Completes (.drain l c k f) s (fun t =>
      IssuesAlone l c false (x.pipe.pc + 1) 0 [] s t ∧ (lndGet t.dev l).regs = x.regs)) ∧
    (readyS l c k 0x39 f s = true → x.trk ≠ [] → Completes (.drain l c k f) s holds)

/-- R102, R103, R107 and R109. -/
def Obligations.BreakAndExit : Prop :=
  ∀ (l : Land) (c : CycleIn) (k : OpCtl) (f : SOps) (s : State),
    let x := lndGet s.dev l
    pselOn x.regs k.psel = true → k.second = false →
    (readyS l c k 0x3E f s = true → Completes (.brk l c k f) s (fun t =>
      (lndGet t.dev l).phase = .halted ∧ (lndGet t.dev l).flt = ⟨true, 0, 0x0A, x.pipe.pc, 0⟩ ∧
      (lndGet t.dev l).regs = x.regs ∧ (lndGet t.dev l).trk = trkNow c x ∧ t.mem = s.mem ∧ t.pending = s.pending ∧
      CountersGrow ((lndBase l + 0x100) :: ballastCount l c false s) s.dev t.dev)) ∧
    (readyS l c k 0x3F f s = true → Completes (.exit l c k f) s (fun t =>
      OnlyLanding l (issueCounts l c false s) s t ∧
      (lndGet t.dev l).phase = (if x.trk = [] then .idle else .draining) ∧
      (lndGet t.dev l).kern = { x.kern with exitCode := (regS x.regs f.sa.toNat).setWidth 32 } ∧
      (lndGet t.dev l).regs = x.regs ∧ (lndGet t.dev l).trk = trkNow c x))

/-- R64, R85 and R101. -/
def Obligations.NopIssues : Prop :=
  ∀ (l : Land) (c : CycleIn) (k : OpCtl) (s : State),
    let x := lndGet s.dev l
    let P (t : State) : Prop := IssuesAlone l c false (x.pipe.pc + 1) 0 [] s t ∧ (lndGet t.dev l).regs = x.regs
    (readyS l c k 0 ⟨0, 0, 0, 0, false, false⟩ s = true → Completes (.nop l c k) s P) ∧
    (∀ b : Bundle, spGet 0 x.imem x.pipe.pc = encodeBundle b → issueOpen l c s = true → bundleLegal b = true →
      (actS0 b).op = 0 → (actS1 b).op = 0 → (actV0 b).op = 0 → (actV1 b).op = 0 → (actM b).op = 0 → (actX b).op = 0 →
      Completes (.bundleIssue l c) s P)

/-- R61, R62 and R85: the fetched bundle is the one the store's bits spell. -/
def Obligations.FetchedBundleRuns : Prop :=
  ∀ (l : Land) (c : CycleIn) (k : OpCtl) (op : BitVec 8) (s : State),
    let word := spGet 0 (lndGet s.dev l).imem (lndGet s.dev l).pipe.pc
    (∀ f, word = encodeBundle (bundleS k op f) → exec (.bundleIssue l c) s = cycleS l c k op f s) ∧
    (∀ f, word = encodeBundle (bundleV k op f) → exec (.bundleIssue l c) s = cycleV l c k op f s) ∧
    (∀ f, word = encodeBundle (bundleM k op f) → exec (.bundleIssue l c) s = cycleM l c k op f s) ∧
    (∀ f, word = encodeBundle (bundleX k op f) → exec (.bundleIssue l c) s = cycleX l c k op f s)

/-- The last sentence of R88, cycle by cycle, for any bundle. -/
def Obligations.CyclesAccounted : Prop :=
  ∀ (l : Land) (c : CycleIn) (s t : State),
    let up (d : Dev) : Prop := (lndGet d l).phase = .running ∨ (lndGet d l).phase = .waiting
    let offs := [0x108, 0x138, 0x130, 0x120, 0x118, 0x110, 0x128].map (lndBase l + ·)
    let total (d : Dev) : Nat := (offs.map (fun o => (cntGet d o).toNat)).sum
    exec (.bundleIssue l c) s = .next t → up s.dev → up t.dev → s.dev.rst.hangPending = false →
    (∀ o ∈ (lndBase l + 0x100) :: offs, cntGet s.dev o ≠ BitVec.allOnes 64) →
    (cntGet t.dev (lndBase l + 0x100)).toNat + total s.dev = (cntGet s.dev (lndBase l + 0x100)).toNat + total t.dev

/-- R62, R63, R69, R71, R75 and R79: no bit of a bundle is dropped and none is read twice. -/
def Obligations.BundleRoundTrip : Prop :=
  (∀ b : Bundle, decodeBundle (encodeBundle b) = b) ∧ (∀ w : BitVec 512, encodeBundle (decodeBundle w) = w)

/-! ### Loads and stores of the own landing store (R70, R73, R89, R182, R183) -/

/-- R70, R89 and R183: the scalar accesses that take effect at issue. -/
def Obligations.OwnStoreScalarAccess : Prop :=
  ∀ (l : Land) (c : CycleIn) (k : OpCtl) (size : BitVec 2) (f : SOps) (s : State) (pa : Nat),
    let x := lndGet s.dev l
    let n := 2 ^ (3 - size.toNat)
    let sum := regS x.regs f.sa.toNat + immS k.ext f.imm20
    let va := if f.w32 then (sum.setWidth 32).toNat else sum.toNat
    pselOn x.regs k.psel = true →
    (readyS l c k (0x20 + size.setWidth 8) f s = true → va % n = 0 → reachRange s l va n false 1 = .ok (pa, 0) →
      inOwnStore l pa n = true → trkConflict x (rngOf pa n false) = false → (granAt s pa).1 = .ok →
      Completes (.ld l c k size f) s (fun t =>
        t.mem = s.mem ∧ t.pending = s.pending ∧ KernelKept l c s t ∧ GoesOn l (x.pipe.pc + 1) 0 s t ∧
        WritesOnlyS x (lndGet t.dev l)
          [(f.sd.toNat, halfWord f.w32 (BitVec.ofNat 64 (leNat ((List.range n).map (fun i => s.mem.byte (pa + i))))))])) ∧
    (readyS l c k (0x28 + size.setWidth 8) f s = true → va % n = 0 → reachRange s l va n true 1 = .ok (pa, 0) →
      inOwnStore l pa n = true → trkConflict x (rngOf pa n true) = false → pageRetired s.dev pa = false →
      Completes (.st l c k size f) s (fun t =>
        (∀ a, t.mem.byte a = if pa ≤ a ∧ a < pa + n then (halfWord f.w32 (regS x.regs f.sb.toNat)).extractLsb' (8 * (a - pa)) 8
          else s.mem.byte a) ∧
        t.pending = s.pending ∧ KernelKept l c s t ∧ GoesOn l (x.pipe.pc + 1) 0 s t ∧ (lndGet t.dev l).regs = x.regs)) ∧
    (va % n ≠ 0 →
      (readyS l c k (0x20 + size.setWidth 8) f s = true → Completes (.ld l c k size f) s (fun t =>
        (lndGet t.dev l).phase = .halted ∧ (lndGet t.dev l).flt = ⟨true, b2n k.second, 0x07, x.pipe.pc, BitVec.ofNat 64 va⟩ ∧
        (lndGet t.dev l).regs = x.regs ∧ t.mem = s.mem)) ∧
      (readyS l c k (0x28 + size.setWidth 8) f s = true → Completes (.st l c k size f) s (fun t =>
        (lndGet t.dev l).phase = .halted ∧ (lndGet t.dev l).flt = ⟨true, b2n k.second, 0x07, x.pipe.pc, BitVec.ofNat 64 va⟩ ∧
        (lndGet t.dev l).regs = x.regs ∧ t.mem = s.mem)))

/-- R65, R66, R73, R152 and R183. -/
def Obligations.OwnStoreVectorAccess : Prop :=
  ∀ (l : Land) (c : CycleIn) (k : OpCtl) (f : VOps) (s : State) (pa : Nat),
    let x := lndGet s.dev l
    let mask := pselMask x.regs k.psel
    let va := (regS x.regs f.sa.toNat + immS k.ext f.imm20).toNat
    let off := (maskSpan mask).1
    let len := (maskSpan mask).2
    let kept (t : State) : Prop := t.pending = s.pending ∧ KernelKept l c s t ∧ GoesOn l (x.pipe.pc + 1) 0 s t
    (readyV l c k 0x30 f s = true → va % 64 = 0 → mask ≠ 0 → reachRange s l (va + off) len false 1 = .ok (pa, 0) →
      inOwnStore l pa len = true → trkConflict x (rngOf pa len false) = false →
      firstBad s (laneGrans pa (va + off) mask) = none →
      Completes (.vld l c k f) s (fun t => kept t ∧ t.mem = s.mem ∧
        WritesOnlyV x (lndGet t.dev l) f.vd.toNat (regV (lndGet t.dev l).regs f.vd.toNat) ∧
        ∀ i, i < 64 → vElem 32 (regV (lndGet t.dev l).regs f.vd.toNat) i =
          laneResult 6 mask f.zero (vElem 32 (regV x.regs f.vd.toNat) i)
            (leNat ((List.range 4).map (fun j => s.mem.byte (pa + (4 * i - off) + j)))) i)) ∧
    (readyV l c k 0x31 f s = true → va % 64 = 0 → mask ≠ 0 → reachRange s l (va + off) len true 1 = .ok (pa, 0) →
      inOwnStore l pa len = true → trkConflict x (rngOf pa len true) = false →
      (∀ i, 64 * i < len → pageRetired s.dev (pa + 64 * i) = false) →
      Completes (.vst l c k f) s (fun t => kept t ∧ (lndGet t.dev l).regs = x.regs ∧
        ∀ a, t.mem.byte a = if pa ≤ a ∧ a < pa + len ∧ mask.getLsbD ((a - pa + off) / 4) = true
          then (regV x.regs f.va.toNat).extractLsb' (8 * (a - pa + off)) 8 else s.mem.byte a)) ∧
    (mask = 0 →
      (readyV l c k 0x30 f s = true → Completes (.vld l c k f) s (fun t => kept t ∧ t.mem = s.mem ∧
        WritesOnlyV x (lndGet t.dev l) f.vd.toNat (if f.zero then 0 else regV x.regs f.vd.toNat))) ∧
      (readyV l c k 0x31 f s = true → Completes (.vst l c k f) s (fun t => kept t ∧ t.mem = s.mem ∧
        (lndGet t.dev l).regs = x.regs))) ∧
    (mask ≠ 0 → va % 64 ≠ 0 → ∀ row ∈ [(Instr.vld, (0x30 : BitVec 8)), (Instr.vst, 0x31)], readyV l c k row.2 f s = true →
      Completes (row.1 l c k f) s (fun t => (lndGet t.dev l).phase = .halted ∧
        (lndGet t.dev l).flt = ⟨true, 2 + b2n k.second, 0x07, x.pipe.pc, BitVec.ofNat 64 va⟩ ∧
        (lndGet t.dev l).regs = x.regs ∧ t.mem = s.mem)) ∧
    (∀ at_, readyV l c k 0x32 f s = true →
      laneAddrs s l (regS x.regs f.sa.toNat) (regV x.regs f.vb.toNat) mask false = .ok at_ →
      (at_.filterMap id).all (fun p => !(trkConflict x [⟨p.1 / 64, p.1 / 64, false⟩])) = true →
      firstBad s (at_.filterMap id) = none →
      Completes (.vgather l c k f) s (fun t => kept t ∧ t.mem = s.mem ∧
        WritesOnlyV x (lndGet t.dev l) f.vd.toNat (regV (lndGet t.dev l).regs f.vd.toNat) ∧
        ∀ i, i < 64 → vElem 32 (regV (lndGet t.dev l).regs f.vd.toNat) i =
          (match (at_[i]?).join with
          | some (pa, _) => leNat ((List.range 4).map (fun j => s.mem.byte (pa + j)))
          | none => if f.zero then 0 else vElem 32 (regV x.regs f.vd.toNat) i))) ∧
    (∀ at_, readyV l c k 0x33 f s = true →
      laneAddrs s l (regS x.regs f.sa.toNat) (regV x.regs f.vb.toNat) mask true = .ok at_ →
      (at_.filterMap id).all (fun p => !(trkConflict x [⟨p.1 / 64, p.1 / 64, true⟩])) = true →
      (∀ p ∈ at_.filterMap id, pageRetired s.dev p.1 = false) →
      Completes (.vscatter l c k f) s (fun t => kept t ∧ (lndGet t.dev l).regs = x.regs ∧
        (∀ a, (∀ p ∈ at_.filterMap id, ¬(p.1 ≤ a ∧ a < p.1 + 4)) → t.mem.byte a = s.mem.byte a) ∧
        ∀ i p, at_[i]? = some (some p) → (∀ j q, i < j → at_[j]? = some (some q) → q.1 ≠ p.1) →
          ∀ j, j < 4 → t.mem.byte (p.1 + j) = (regV x.regs f.va.toNat).extractLsb' (32 * i + 8 * j) 8))

/-! ### Vector operations (R71 to R74, R146 to R159) -/

/-- R65, R66 and R73 over every state, type and mask. -/
def Obligations.VectorElements : Prop :=
  ∀ row ∈ vecRows, ∀ (l : Land) (c : CycleIn) (k : OpCtl) (f : VOps) (s : State),
    readyV l c k row.op f s = true →
    Completes (row.con l c k f) s (fun t =>
      let x := lndGet s.dev l
      let y := lndGet t.dev l
      let w := tyW f.ty.toNat
      IssuesAlone l c false (x.pipe.pc + 1) 0 [] s t ∧
      WritesOnlyV x y f.vd.toNat (regV y.regs f.vd.toNat) ∧
      (∀ i, i < 2048 / w → vElem w (regV y.regs f.vd.toNat) i =
        laneResult f.ty.toNat (pselMask x.regs k.psel) f.zero (vElem w (regV x.regs f.vd.toNat) i)
          (row.elem x.regs f i % 2 ^ w) i) ∧
      readyFrom x y (64 + f.vd.toNat) = x.pipe.cyc + row.lat (decide (f.ty.toNat < 3)))

/-- R73 and R148 for integer elements. -/
def Obligations.IntegerElements : Prop :=
  ∀ (ty : Nat) (rnd : Rnd) (a b c : Nat), 3 ≤ ty → ty ≤ 8 →
    let w := tyW ty
    let sg := decide (ty ≤ 5)
    a < 2 ^ w → b < 2 ^ w → c < 2 ^ w →
    (∀ row ∈ intElems, vElemOp row.1 ty rnd false a b c =
      (row.2 sg w (BitVec.ofNat w a) (BitVec.ofNat w b) (BitVec.ofNat w c)).toNat) ∧
    (let v (n : Nat) : Int := if sg then (BitVec.ofNat w n).toInt else n
     let lo : Int := if sg then -(2 ^ (w - 1) : Nat) else 0
     let hi : Int := if sg then (2 ^ (w - 1) : Nat) - 1 else (2 ^ w : Nat) - 1
     ∀ op ∈ [(0x01, v a + v b), (0x02, v a - v b), (0x03, v a * v b)],
       vElemOp op.1 ty rnd true a b c = (BitVec.ofInt w (max lo (min hi op.2))).toNat)

/-- R73, R149 to R151, R153, R155 and R158. -/
def Obligations.VectorOtherResults : Prop :=
  ∀ (l : Land) (c : CycleIn) (k : OpCtl) (f : VOps) (s : State),
    let x := lndGet s.dev l
    let r := x.regs
    let ty := f.ty.toNat
    let w := tyW ty
    let ctl := f.ctl.toNat
    let mask := pselMask r k.psel
    let rnd := rndOf f.rnd
    let a := regV r f.va.toNat
    let b := regV r f.vb.toNat
    let old := regV r f.vd.toNat
    let sa := regS r f.sa.toNat
    let imm := (immS k.ext f.imm20).toNat
    let alone (t : State) : Prop := IssuesAlone l c false (x.pipe.pc + 1) 0 [] s t
    let vec (v : VWord) (t : State) : Prop := alone t ∧ WritesOnlyV x (lndGet t.dev l) f.vd.toNat v
    let sca (v : List W64) (t : State) : Prop := alone t ∧ WritesOnlyS x (lndGet t.dev l) (v.map (fun v => (f.sa.toNat, v)))
    (readyV l c k 0x10 f s = true → Completes (.vcmp l c k f) s (fun t => alone t ∧
      WritesOnlyP x (lndGet t.dev l) f.pd.toNat (vCmpResult ty ctl mask f.zero (regP r f.pd.toNat) a b))) ∧
    (readyV l c k 0x18 f s = true → Completes (.vcvt l c k f) s
      (vec (vCvtResult (ctl % 16) ty (ctl / 16) rnd f.sat mask f.zero old a))) ∧
    (readyV l c k 0x23 f s = true → Completes (.vins l c k f) s (vec (vOfElems w ((List.range (tyCount ty)).map (fun i =>
      if i = imm then laneResult ty mask f.zero (vElem w old i) (sa.toNat % 2 ^ w) i else vElem w old i))))) ∧
    (readyV l c k 0x22 f s = true → Completes (.vext l c k f) s
      (sca (if mask.getLsbD (imm * w / 32) then
        [if 3 ≤ ty ∧ ty ≤ 5 then BitVec.ofInt 64 (BitVec.ofNat w (vElem w a imm)).toInt else BitVec.ofNat 64 (vElem w a imm)]
        else if f.zero then [0] else []))) ∧
    (readyV l c k 0x28 f s = true → Completes (.vredadd l c k f) s (sca [vReduce 0x28 ty rnd mask a])) ∧
    (readyV l c k 0x29 f s = true → Completes (.vredmax l c k f) s (sca [vReduce 0x29 ty rnd mask a])) ∧
    (readyV l c k 0x2A f s = true → Completes (.vredmin l c k f) s (sca [vReduce 0x2A ty rnd mask a])) ∧
    (readyV l c k 0x38 f s = true → ∀ g, tyFloat ty = some g → Completes (.vsfu l c k f) s (fun t =>
      vec (vOfElems w ((List.range (tyCount ty)).map (fun i =>
        laneResult ty mask f.zero (vElem w old i) (sfu g (ctl % 8) ty (vElem w a i)) i))) t ∧
      (lndGet t.dev l).pipe.sfuFree = max x.pipe.sfuFree x.pipe.cyc + tyCount ty / 32)) ∧
    (readyV l c k 0x3C f s = true → Completes (.vrng l c k f) s
      (vec (vRngResult ty (ctl % 2 ^ 16) r.rngKey sa mask f.zero old)))

/-! ### Flights and moves (R75 to R81, R113 to R142, R186 to R193) -/

/-- R77, R78, R124 to R128 and R132. -/
def Obligations.MatrixTiles : Prop :=
  ∀ (l : Land) (c : CycleIn) (k : OpCtl) (f : MOps) (s : State),
    let x := lndGet s.dev l
    let r := x.regs
    let acc := f.acc.toNat
    let out := mmacTile f.fmtA.toNat f.fmtB.toNat
      (blockPlans (isMxfp4 f.fmtA.toNat f.fmtB.toNat) f.bsel f.ia.toNat f.ib.toNat)
      (fun b i => spGet 0 r.fa (32 * b + i)) (fun b j => spGet 0 r.fb (32 * b + j)) (fun b j => spGet 0 r.md (32 * b + j))
      (regAcc r acc)
    let kept (t : State) : Prop := OnlyLandings s t ∧ (∀ m, m ≠ l.val → lndGet t.dev m = lndGet s.dev m) ∧
      KernelKept l c s t ∧ GoesOn l (x.pipe.pc + 1) 0 s t ∧
      (lndGet t.dev l).regs = { r with acc := (lndGet t.dev l).regs.acc } ∧
      ∀ a, a ≠ acc → regAcc (lndGet t.dev l).regs a = regAcc r a
    pselOn r k.psel = true →
    (readyM l c k 3 f s = true → Completes (.mzero l c k f) s (fun t => kept t ∧ (∀ i, (regAcc (lndGet t.dev l).regs acc).getD i 0 = 0) ∧
      CountersGrow (issueCounts l c true s) s.dev t.dev ∧ (lndGet t.dev l).pipe.flightFree = x.pipe.cyc + 1)) ∧
    (readyM l c k 2 f s = true → Completes (.mmac l c k f) s (fun t => kept t ∧
      regAcc (lndGet t.dev l).regs acc = out.1 ∧
      cntGet t.dev (fltBase l) = bumped (cntGet s.dev (fltBase l)) ∧
      cntGet t.dev (fltBase l + 0x08) = (if f.bsel then bumped (cntGet s.dev (fltBase l + 0x08))
        else cntGet s.dev (fltBase l + 0x08)) ∧
      (cntGet t.dev (fltBase l + 0x30)).toNat = min (2 ^ 64 - 1) ((cntGet s.dev (fltBase l + 0x30)).toNat + out.2.1) ∧
      (cntGet t.dev (fltBase l + 0x38)).toNat = min (2 ^ 64 - 1) ((cntGet s.dev (fltBase l + 0x38)).toNat + out.2.2) ∧
      (∀ off, off ∉ [fltBase l, fltBase l + 0x08, fltBase l + 0x30, fltBase l + 0x38] → off ∉ issueCounts l c true s →
        cntGet t.dev off = cntGet s.dev off) ∧
      (lndGet t.dev l).pipe.flightFree = x.pipe.cyc + (if f.fmtA = 7 ∨ f.fmtA = 8 then 2 else 1) ∧
      spGet 0 (lndGet t.dev l).pipe.accRdy acc = x.pipe.cyc + 8))

/-- R89, R90 and R184. -/
def Obligations.AsynchronousStarts : Prop :=
  ∀ (l : Land) (c : CycleIn) (k : OpCtl) (s : State) (o : StartOp),
    let x := lndGet s.dev l
    (∀ size f, pselOn x.regs k.psel = true → readyS l c k (0x20 + BitVec.setWidth 8 size) f s = true →
      startOf x (planS s l (bundleS k (0x20 + BitVec.setWidth 8 size) f) k.second) = some o →
      Completes (.ld l c k size f) s (Starts l c o s)) ∧
    (∀ size f, pselOn x.regs k.psel = true → readyS l c k (0x28 + BitVec.setWidth 8 size) f s = true →
      startOf x (planS s l (bundleS k (0x28 + BitVec.setWidth 8 size) f) k.second) = some o →
      Completes (.st l c k size f) s (Starts l c o s)) ∧
    (∀ row ∈ [(Instr.vld, (0x30 : BitVec 8)), (Instr.vst, 0x31)], ∀ f, readyV l c k row.2 f s = true →
      startOf x (planV s l (bundleV k row.2 f) ⟨row.2, f⟩ (if k.second then 4 else 3) k.psel 0) = some o →
      Completes (row.1 l c k f) s (Starts l c o s)) ∧
    (∀ row ∈ [(Instr.mload, (1 : BitVec 8)), (Instr.mstore, 4)], ∀ f, pselOn x.regs k.psel = true → readyM l c k row.2 f s = true →
      startOf x (planM s l (bundleM k row.2 f)) = some o → Completes (row.1 l c k f) s (Starts l c o s)) ∧
    (∀ row ∈ moveRows, ∀ f, pselOn x.regs k.psel = true → readyX l c k row.2 f s = true → startOf x (planX s l (bundleX k row.2 f)) = some o →
      Completes (row.1 l c k f) s (Starts l c o s))

/-- R80, R81, R186: the plans of xcopy and xfill, of which exec's starts are stated above. -/
def Obligations.CopyAndFillPlans : Prop :=
  ∀ (l : Land) (k : OpCtl) (f : XOps) (s : State),
    let r := (lndGet s.dev l).regs
    let dst := (regS r f.sdst.toNat).toNat
    let src := (regS r f.ssrc.toNat).toNat
    let len := if f.lenimm then 64 * immX k.ext f.imm20 else (regS r f.slen.toNat).toNat
    let bad := f.notify && !(ctrOwned s.dev (lndGet s.dev l).kern.slot f.ctr.toNat)
    let copy := planX s l (bundleX k 1 f)
    let fill := planX s l (bundleX k 2 f)
    let note := if f.notify then some f.ctr.toNat else none
    (bad = true → copy.fault = some (0x08, 0) ∧ fill.fault = some (0x08, 0)) ∧
    (bad = false → 2 ^ 28 < len → copy.fault = some (0x01, 0) ∧ fill.fault = some (0x01, 0)) ∧
    (bad = false → len ≤ 2 ^ 28 → src % 64 ≠ 0 → copy.fault = some (0x07, src)) ∧
    (bad = false → len ≤ 2 ^ 28 → src % 64 = 0 → dst % 64 ≠ 0 → copy.fault = some (0x07, dst)) ∧
    (bad = false → len ≤ 2 ^ 28 → dst % 64 ≠ 0 → fill.fault = some (0x07, dst)) ∧
    (bad = false → len ≤ 2 ^ 28 → src % 64 = 0 → dst % 64 = 0 → len % 64 = 0 →
      (∀ pd c2, namedRange s l dst len true 0 = .ok (pd, c2) →
        (fill.fault = none ∧ fill.cross = c2 ∧ fill.start =
          some ⟨.xfill pd dst len (regS r f.saux.toNat), rngOf pd len true, false, [], note, true⟩) ∧
        ∀ ps c1, namedRange s l src len false 0 = .ok (ps, c1) →
          (len ≠ 0 → ps < pd + len → pd < ps + len → copy.fault = some (0x01, 0)) ∧
          (len = 0 ∨ pd + len ≤ ps ∨ ps + len ≤ pd → copy.fault = none ∧ copy.cross = c1 + c2 ∧ copy.start =
            some ⟨.xcopy ps pd dst len, rngOf ps len false ++ rngOf pd len true, false, [], note, true⟩)))

/-- R66, R80 and R325. -/
def Obligations.CounterSetAndOffSlots : Prop :=
  ∀ (l : Land) (c : CycleIn) (k : OpCtl) (s : State),
    let x := lndGet s.dev l
    (∀ f, pselOn x.regs k.psel = true → readyX l c k 8 f s = true → ctrOwned s.dev x.kern.slot f.ctr.toNat = true →
      (∀ g ∈ s.dev.nic.trig, trigCtr g.desc ≠ f.ctr.toNat) →
      Completes (.xctr l c k f) s (fun t => KernelKept l c s t ∧ GoesOn l (x.pipe.pc + 1) 0 s t ∧
        (lndGet t.dev l).regs = x.regs ∧ t.pending = s.pending ∧ t.mem = s.mem ∧
        t.dev = { s.dev with
          lnd := t.dev.lnd, cnt := t.dev.cnt, nic := { s.dev.nic with ctr := t.dev.nic.ctr } } ∧
        ∀ n, ctrGet t.dev n =
          if n = f.ctr.toNat then ⟨(regS x.regs f.saux.toNat).setWidth 48, false⟩ else ctrGet s.dev n)) ∧
    (∀ row ∈ matrixRows, ∀ f, pselOn x.regs k.psel = false → readyM l c k row.2 f s = true →
      Completes (row.1 l c k f) s (fun t => IssuesAlone l c false (x.pipe.pc + 1) 0 [] s t ∧
        (lndGet t.dev l).regs = x.regs)) ∧
    (∀ row ∈ moveRows, ∀ f, pselOn x.regs k.psel = false → readyX l c k row.2 f s = true →
      Completes (row.1 l c k f) s (fun t => IssuesAlone l c false (x.pipe.pc + 1) 0 [] s t ∧
        (lndGet t.dev l).regs = x.regs))

/-! ### The end of asynchronous work, waits and kernels (R92, R94, R96, R102, R106, R551) -/

/-- R92 and R102: the retirement of every tracker, and the effect of the scalar accesses and of an operation without
data. -/
def Obligations.TrackerRetires : Prop :=
  (∀ (l : Land) (id : Nat) (s : State) (k : Tracker), s.dev.rst.clocksStopped = false → trkFind (lndGet s.dev l) id = some k →
    (k.ready = true ∨ k.failed.isSome = true) → k.notify = none →
    ∃ t, exec (.trackerRetire l id) s = .next t ∧ ∀ j ∈ (lndGet t.dev l).trk, j.id ≠ k.id) ∧
  ∀ (l : Land) (s : State) (k : Tracker),
    let x := lndGet s.dev l
    s.dev.rst.clocksStopped = false → trkFind x k.id = some k → k.notify = none → k.failed = none → k.ready = true →
    let gone (t : State) : Prop :=
      let y := lndGet t.dev l
      y.trk = x.trk.filter (fun j => j.id != k.id) ∧ t.pending = s.pending ∧
        y.phase = (if x.phase = .draining ∧ y.trk = [] then .idle else x.phase)
    (∀ sd n pa va w, k.op = .ld sd n pa va w → pa % n = 0 → n ∈ [1, 2, 4, 8] → (granAt s pa).1 = .ok →
      Completes (.trackerRetire l k.id) s (fun t => gone t ∧ t.mem = s.mem ∧ WritesOnlyS x (lndGet t.dev l)
        [(sd, halfWord w (BitVec.ofNat 64 (leNat (peekBytes s pa n))))])) ∧
    (∀ pa va b key, k.op = .st pa va b → keyOf s.dev pa = some key → pa % 64 + b.length ≤ 64 → pageRetired s.dev pa = false →
      Completes (.trackerRetire l k.id) s (fun t => gone t ∧ (lndGet t.dev l).regs = x.regs ∧
        ∀ a, t.mem.byte a = (if key ≤ a then (b[a - key]?).getD (s.mem.byte a) else s.mem.byte a))) ∧
    (∀ src dst va, k.op = .xcopy src dst va 0 →
      Completes (.trackerRetire l k.id) s (fun t => gone t ∧ t.mem = s.mem ∧ (lndGet t.dev l).regs = x.regs ∧
        CountersGrow [memBase + 0x480] s.dev t.dev))

/-- R94, R96 and R106. -/
def Obligations.LandingTimeouts : Prop :=
  ∀ (l : Land) (s : State), s.dev.rst.clocksStopped = false →
    let x := lndGet s.dev l
    (∀ k : Tracker, trkFind x k.id = some k → k.timedOut = false →
      Completes (.trackerTimeout l k.id) s (fun t =>
        let y := lndGet t.dev l
        Only [.lnd, .hif] s t ∧ y.phase = .halted ∧ y.flt = ⟨true, 7, 0x0B, x.pipe.pc % 4096, 0⟩ ∧ y.regs = x.regs ∧
        y.trk = x.trk.map (fun j => if j.id = k.id then { j with timedOut := true } else j))) ∧
    (∀ (k : OpCtl) (f : SOps),
      let n := (regS x.regs f.sa.toNat).toNat % 4096
      let ctr := ctrGet s.dev n
      spGet 0 x.imem x.pipe.pc = encodeBundle (bundleS k 0x38 f) → k.second = false → x.phase = .waiting →
      x.regs.waitTmo ≠ 0 → readyS l calmCycle k 0x38 f s = true → pselOn x.regs k.psel = true →
      x.pipe.timedOut = false → ctrOwned s.dev x.kern.slot n = true → ctr.err = false →
      ctr.val.toNat < (if f.w32 then (srcB k f x).toNat % 2 ^ 32 else (srcB k f x).toNat) →
      Completes (.waitTimeout l) s (fun t =>
        IssuesAlone l calmCycle false (x.pipe.pc + 1) 0 [] s t ∧
        WritesOnlyS x (lndGet t.dev l) [(f.sd.toNat, halfWord f.w32 (ctr.val.setWidth 64 ||| (1 : W64) <<< 62))])) ∧
    (x.phase = .running → objGet s.dev 0x605001 ≠ 1 → s.dev.rst.hangPending = false → s.dev.health.state ≠ .off →
      Completes (.watchdog l) s (fun t =>
        let y := lndGet t.dev l
        Only [.lnd, .hif, .kmd, .cnt] s t ∧ y.phase = .halted ∧ y.flt = ⟨true, 7, 0x0C, x.pipe.pc % 4096, 0⟩ ∧
        y.regs = x.regs ∧ y.trk = x.trk ∧ EventSent 0x6001 l 0 s.dev t.dev ∧
        cntGet t.dev (lndBase l + 0x158) = bumped (cntGet s.dev (lndBase l + 0x158)) ∧
        cntGet t.dev (objCnt 0x605003) = bumped (cntGet s.dev (objCnt 0x605003))))

/-- R102 and R551. -/
def Obligations.KernelCompletes : Prop :=
  ∀ (slot : Fin 32) (ring : Fin 8) (energy : Nat) (s : State) (k : Running),
    let r := ringGet s.dev slot ring
    let info : CplInfo := ⟨(runStatus k).1, (runStatus k).2, runRank k, runExit s.dev k, energy⟩
    r.run = some k → r.fetched = [] → k.compared = false → k.noEntry = false → s.dev.ls.state ≠ 2 →
    s.dev.rst.clocksStopped = false →
    (kernelDone s.dev slot ring k = true → k.desc.getLsbD 9 = false →
      Completes (.kernelComplete slot ring energy) s (fun t =>
        let r' := ringGet t.dev slot ring
        Only [.hif, .cnt] s t ∧ r' = { r with run := none, prod := k.idx + 1 } ∧
        CountersGrow [hifBase + 0x420] s.dev t.dev ∧
        t.dev.hif.out = s.dev.hif.out ++
          [.write (r.cqBase + BitVec.ofNat 64 (32 * (k.idx.toNat % 2 ^ ringLog r))) (entryBytes s.dev ring r k.idx k.desc info)
            false] ∧
        ∀ m n, (m, n) ≠ (slot.val, ring.val) → n < 8 → ringGet t.dev m n = ringGet s.dev m n)) ∧
    (kernelDone s.dev slot ring k = false → exec (.kernelComplete slot ring energy) s = .next s)

/-- R163, R187 and R192. -/
def Obligations.EnginesTakeJobs : Prop :=
  ∀ (s : State) (j : Job) (q : List Job), s.dev.rst.clocksStopped = false →
    let ready (t : State) : Prop :=
      (∀ m, lndGet t.dev m = if m = j.landing then
        { lndGet s.dev m with trk := (lndGet s.dev m).trk.map (fun k => if k.id = j.trk then { k with ready := true } else k) }
        else lndGet s.dev m) ∧ Only [.lnd, .memc] s t
    (∀ (g : Fin 12) (u : Fin 2), spGet [] s.dev.memc.strQ (2 * g + u) = j :: q →
      ((spGet [] s.dev.memc.strRun (2 * g + u)).length < 32 → Completes (.streamJobStart g u) s (fun t => ready t ∧
        (∀ e, spGet [] t.dev.memc.strQ e = if e = 2 * g + u then q else spGet [] s.dev.memc.strQ e) ∧
        (∀ e, spGet [] t.dev.memc.strRun e =
          if e = 2 * g + u then spGet [] s.dev.memc.strRun e ++ [j] else spGet [] s.dev.memc.strRun e) ∧
        t.dev.memc = { s.dev.memc with strQ := t.dev.memc.strQ, strRun := t.dev.memc.strRun })) ∧
      ((spGet [] s.dev.memc.strRun (2 * g + u)).length = 32 → exec (.streamJobStart g u) s = .next s)) ∧
    (∀ (h : Fin 2) (n : Fin 8), spGet [] s.dev.memc.upkQ h = j :: q →
      (spGet [] s.dev.memc.upkRun (8 * h + n) = [] → Completes (.unpackJobStart h n) s (fun t => ready t ∧
        (∀ e, spGet [] t.dev.memc.upkQ e = if e = h then q else spGet [] s.dev.memc.upkQ e) ∧
        (∀ e, spGet [] t.dev.memc.upkRun e = if e = 8 * h + n then [j] else spGet [] s.dev.memc.upkRun e) ∧
        t.dev.memc = { s.dev.memc with upkQ := t.dev.memc.upkQ, upkRun := t.dev.memc.upkRun })) ∧
      ((spGet [] s.dev.memc.upkRun (8 * h + n)).length = 1 → exec (.unpackJobStart h n) s = .next s)) ∧
    (∀ (g : Fin 12), spGet [] s.dev.memc.topQ g = j :: q →
      (spGet [] s.dev.memc.topRun g = [] → Completes (.topkJobStart g) s (fun t => ready t ∧
        (∀ e, spGet [] t.dev.memc.topQ e = if e = g then q else spGet [] s.dev.memc.topQ e) ∧
        (∀ e, spGet [] t.dev.memc.topRun e = if e = g then [j] else spGet [] s.dev.memc.topRun e) ∧
        t.dev.memc = { s.dev.memc with topQ := t.dev.memc.topQ, topRun := t.dev.memc.topRun })) ∧
      ((spGet [] s.dev.memc.topRun g).length = 1 → exec (.topkJobStart g) s = .next s))

/-! ### Memory tiers (R181 to R185, R199 to R213) -/

/-- R199 to R203. -/
def Obligations.MemoryErrors : Prop :=
  ∀ (s : State) (pa k : Nat), s.dev.rst.clocksStopped = false →
    let off (a b c : Nat) : Nat := memBase + (match tierOf pa with
      | .mezz => a
      | .stack => b
      | _ => c)
    Completes (.patrolScrub pa .clean) s (fun t => Only [.memc, .cnt] s t ∧
      t.dev.memc = { s.dev.memc with pdn := t.dev.memc.pdn, srf := t.dev.memc.srf } ∧
      ∀ c, c ∈ t.dev.memc.srf ↔ c ∈ s.dev.memc.srf) ∧
    (isLive s.dev = true → keyOf s.dev pa = some k →
      Completes (.patrolScrub pa .correctable) s (fun t => t.mem = s.mem ∧ t.pending = s.pending ∧
        Only [.memc, .health, .kmd, .cnt] s t ∧
        cntGet t.dev (off 0x400 0x410 0x420) = bumped (cntGet s.dev (off 0x400 0x410 0x420))) ∧
      Completes (.patrolScrub pa .uncorrectable) s (fun t => Only [.mem, .memc, .health, .kmd, .cnt] s t ∧
        (∀ a, t.mem.byte a = s.mem.byte a) ∧ (∀ g, g ∈ t.mem.poison ↔ g = k / 64 ∨ g ∈ s.mem.poison) ∧
        t.mem.warm = s.mem.warm ∧
        cntGet t.dev (off 0x408 0x418 0x428) = bumped (cntGet s.dev (off 0x408 0x418 0x428)) ∧
        s.dev.kmd.evNext < t.dev.kmd.evNext ∧
        (tierDram (tierOf pa) = true → 4096 * (pa / 4096) ∉ s.dev.memc.retired → s.dev.memc.retired.length < 4096 →
          t.dev.memc.retired = s.dev.memc.retired ++ [4096 * (pa / 4096)]))) ∧
    (∀ bank row, (bank * 2 ^ 48 + row) ∈ s.dev.memc.copying →
      Completes (.rowSpareDone bank row) s (fun t => Only [.memc, .health, .kmd, .cnt] s t ∧
        spGet 0 t.dev.memc.spareUsed bank = spGet 0 s.dev.memc.spareUsed bank + 1 ∧
        (∀ r, r ∈ t.dev.memc.copying ↔ r ≠ bank * 2 ^ 48 + row ∧ r ∈ s.dev.memc.copying) ∧
        cntGet t.dev (memBase + 0x430) = bumped (cntGet s.dev (memBase + 0x430)) ∧
        (s.dev.health.defects.length < 8192 → ∃ e, t.dev.health.defects = s.dev.health.defects ++ [e] ∧ e.kind = 4)))

/-- R205 to R208. -/
def Obligations.ChannelsAndStores : Prop :=
  ∀ (s : State) (n : Nat), s.dev.rst.clocksStopped = false →
    (isLive s.dev = true → n < 192 → n ∉ s.dev.memc.srf →
      Completes (.powerDownEntry n) s (fun t => Only [.memc] s t ∧ t.dev.memc = { s.dev.memc with pdn := t.dev.memc.pdn } ∧
        ∀ c, c ∈ t.dev.memc.pdn ↔ c = n ∨ c ∈ s.dev.memc.pdn) ∧
      (objGet s.dev 0x530001 = 1 → Completes (.selfRefreshEntry n) s (fun t => Only [.memc, .cnt] s t ∧
        t.dev.memc = { s.dev.memc with pdn := t.dev.memc.pdn, srf := t.dev.memc.srf } ∧
        (∀ c, c ∈ t.dev.memc.srf ↔ c = n ∨ c ∈ s.dev.memc.srf) ∧
        (∀ c, c ∈ t.dev.memc.pdn ↔ c ≠ n ∧ c ∈ s.dev.memc.pdn) ∧ CountersGrow [memBase + 0x460] s.dev t.dev)) ∧
      (objGet s.dev 0x530001 ≠ 1 → exec (.selfRefreshEntry n) s = .next s)) ∧
    (n ∈ s.dev.memc.srf → Completes (.selfRefreshExit n) s (fun t => Only [.memc, .cnt] s t ∧
      t.dev.memc = { s.dev.memc with srf := t.dev.memc.srf } ∧
      (∀ c, c ∈ t.dev.memc.srf ↔ c ≠ n ∧ c ∈ s.dev.memc.srf) ∧ CountersGrow [memBase + 0x468] s.dev t.dev)) ∧
    (storeCanGate s.dev n = true → Completes (.storeGate n) s (fun t =>
      let lo := (storeSpan n).1
      let hi := lo + (storeSpan n).2
      Only [.mem, .memc, .cnt] s t ∧ n ∈ t.dev.memc.gated ∧ spGet 0 t.dev.memc.writers n = 0 ∧
      (∀ a, t.mem.byte a = if lo ≤ a ∧ a < hi then 0 else s.mem.byte a) ∧
      (∀ g, lo ≤ 64 * g → 64 * g < hi → g ∉ t.mem.warm) ∧ CountersGrow [memBase + 0x458] s.dev t.dev)) ∧
    (Completes (.storeWake n) s (fun t => Only [.memc] s t ∧ t.dev.memc = { s.dev.memc with gated := t.dev.memc.gated } ∧
      ∀ g, g ∈ t.dev.memc.gated ↔ g ≠ n ∧ g ∈ s.dev.memc.gated))

/-- R13, R14, R185, R211 and R213. -/
def Obligations.TranslationControl : Prop :=
  ∀ (s : State), hifUp s.dev = true → isLive s.dev = true →
    (∀ v : W32,
      let scope := (v.toNat / 2 ^ 16) % 4
      (s.dev.memc.xltInv = none → scope < 2 → Completes (.xltInv v) s (fun t => Only [.memc] s t ∧
        t.dev.memc = { s.dev.memc with xltInv := some (scope, v.toNat % 32) })) ∧
      (s.dev.memc.xltInv = none → 2 ≤ scope → Completes (.xltInv v) s (fun t => Only [.hif] s t ∧
        t.dev.hif.err.getLsbD 0 = true)) ∧
      (s.dev.memc.xltInv ≠ none → Completes (.xltInv v) s (fun t => Only [.hif] s t ∧ t.dev.hif.err.getLsbD 1 = true))) ∧
    (∀ scope n, s.dev.memc.xltInv = some (scope, n) → Completes .xltInvDone s (fun t => Only [.memc] s t ∧
      t.dev.memc.xltInv = none ∧
      ∀ e, e ∈ t.dev.memc.xltCache ↔ e ∈ s.dev.memc.xltCache ∧ scope ≠ 1 ∧ e.slot ≠ n)) ∧
    (∀ (slot : Fin 32) (v : W64),
      (kernelRuns s.dev slot = false → Completes (.xltRootWrite slot v) s (fun t => Only [.memc, .regs] s t ∧
        xltRoot t.dev slot = v &&& 0x0000FFFFFFFFF001 ∧
        (∀ m : Nat, m ≠ slot.val → xltRoot t.dev m = xltRoot s.dev m) ∧
        ∀ e, e ∈ t.dev.memc.xltCache ↔ e ∈ s.dev.memc.xltCache ∧ e.slot ≠ slot.val)) ∧
      (kernelRuns s.dev slot = true → Completes (.xltRootWrite slot v) s (fun t => Only [.hif] s t ∧
        t.dev.hif.err.getLsbD 1 = true)))

/-- The form of memory is an invariant of all 289 commands and of the idle step (the form itself is the model's). -/
def Obligations.MemoryStaysCanonical : Prop :=
  ∀ s t : State, s.mem.wf = true → step s = .next t → t.mem.wf = true

/-- The base case of the memory's invariant. -/
def Obligations.ResetMemoryCanonical : Prop := State.reset.mem.wf = true ∧ State.reset.mem.bytes = []

/-! ### Rack time (R30 to R43, R47, R48) -/

/-- R35, R37, R40, R47 and R49. -/
def Obligations.LockLoss : Prop :=
  ∀ (s : State), hubUp s.dev = true →
    (s.dev.tim.state = .locked → Completes .estimateTimeout s (fun t => Only [.tim, .kmd, .hif, .health, .cnt] s t ∧
      t.dev.tim.state = .holdover ∧ s.dev.tim.lastEst + 2 ^ 18 ≤ t.dev.tim.now ∧
      cntGet t.dev (objCnt 0x303005) = bumped (cntGet s.dev (objCnt 0x303005)))) ∧
    (s.dev.tim.state = .acquiring → Completes .estimateTimeout s (fun t =>
      t.mem = s.mem ∧ t.pending = s.pending ∧ t.dev.lnd = s.dev.lnd ∧
      t.dev.tim.state = (if s.dev.tim.everLocked then .lost else .unlocked) ∧ ∀ i ∈ t.dev.nic.insts, i.deadline = 0)) ∧
    (s.dev.tim.state = .holdover → Completes .estimateTimeout s (fun t => Only [.tim, .kmd, .hif, .cnt] s t ∧
      t.dev.tim.state = .holdover ∧ t.dev.tim.estPresent = false)) ∧
    (s.dev.tim.state = .holdover → s.dev.tim.pulseHeld = false →
      Completes .holdoverLimit s (fun t => t.mem = s.mem ∧ t.pending = s.pending ∧ t.dev.lnd = s.dev.lnd ∧
        t.dev.tim.state = .lost ∧ t.dev.health.degraded.getLsbD 6 = true ∧
        cntGet t.dev (objCnt 0x303006) = bumped (cntGet s.dev (objCnt 0x303006)) ∧
        ∀ i ∈ t.dev.nic.insts, i.deadline = 0) ∧
      Completes .expressBoundWithdraw s (fun t => Only [.tim, .kmd, .hif, .cnt] s t ∧ t.dev.tim.state = .holdover ∧
        boundInForce t.dev.tim = false ∧ t.dev.tim.expressWithdrawn = true)) ∧
    (s.dev.tim.state ≠ .holdover → exec .holdoverLimit s = .next s ∧ exec .expressBoundWithdraw s = .next s)

/-- R34, R37 and R38; θ is held in quarter nanoseconds. -/
def Obligations.CombinedEstimates : Prop :=
  ∀ (s : State), hubUp s.dev = true →
    let u := s.dev.tim
    let m := median4 (periodEstimates s.dev)
    (m = none → Completes .combinedEstimate s (fun t => Only [.tim, .kmd, .hif, .cnt] s t ∧ t.dev.tim.state = u.state ∧
      t.dev.tim.count = u.count ∧ t.dev.tim.lastEst = u.lastEst ∧ t.dev.tim.estPresent = false)) ∧
    (∀ th : Int, m = some th →
      let okRun := if th.natAbs ≤ 16 then u.okRun + 1 else 0
      (u.state = .unlocked → Completes .combinedEstimate s (fun t => t.mem = s.mem ∧ t.dev.lnd = s.dev.lnd ∧
        t.dev.tim.state = .acquiring ∧ t.dev.tim.lastEst = u.now ∧
        t.dev.tim.count = BitVec.ofInt 64 ((u.count.toNat : Int) - th.tdiv 4))) ∧
      (u.state = .locked → (th.natAbs ≤ 64 ∨ u.badRun < 3) → Completes .combinedEstimate s (fun t =>
        Only [.tim, .kmd, .hif, .cnt] s t ∧ t.dev.tim.state = .locked ∧ t.dev.tim.lastEst = u.now ∧
        t.dev.tim.slew = th.tdiv 4 ∧ t.dev.tim.count = u.count ∧ t.dev.tim.okRun = okRun ∧
        t.dev.tim.badRun = (if th.natAbs ≤ 64 then 0 else u.badRun + 1))) ∧
      (u.state = .locked → 64 < th.natAbs → 3 ≤ u.badRun → Completes .combinedEstimate s (fun t =>
        t.mem = s.mem ∧ t.dev.lnd = s.dev.lnd ∧ t.dev.tim.state = .acquiring ∧ t.dev.tim.lastEst = u.now)) ∧
      (u.state = .holdover → th.natAbs ≤ 64 → Completes .combinedEstimate s (fun t =>
        Only [.tim, .kmd, .hif, .health, .cnt] s t ∧ t.dev.tim.lastEst = u.now ∧ t.dev.tim.slew = th.tdiv 4 ∧
        t.dev.tim.state = (if 16 ≤ okRun then .locked else .holdover))))

/-- R41, with R42 and R43 beside it. -/
def Obligations.Pulses : Prop :=
  ∀ (s : State), hubUp s.dev = true →
    let u := s.dev.tim
    let m : Nat := u.count.toNat % 2 ^ 20
    let off : Int := if m < 2 ^ 19 then Int.ofNat m else Int.ofNat m - 2 ^ 20
    let missed (t : State) : Prop := cntGet t.dev (objCnt 0x303004) = bumped (cntGet s.dev (objCnt 0x303004)) ∧
      t.dev.tim.evt.getLsbD 5 = true
    let frame (t : State) : Prop := Only [.tim, .kmd, .hif, .cnt] s t ∧ t.dev.tim.state = u.state ∧ t.dev.tim.count = u.count
    (objGet s.dev 0x301005 = 0 → exec .rtPulseEdge s = .next s) ∧
    (objGet s.dev 0x301005 ≠ 0 → extestOn s.dev = false → off.natAbs ≤ 64 →
      (u.state = .locked → Completes .rtPulseEdge s (fun t => Only [.tim] s t ∧ t.dev.tim.state = u.state ∧
        t.dev.tim.count = u.count ∧ t.dev.tim.slew = u.slew ∧ t.dev.tim.pulseAbsent = false)) ∧
      (u.state = .holdover → Completes .rtPulseEdge s (fun t => frame t ∧ t.dev.tim.pulseHeld = true ∧
        t.dev.tim.slew = off ∧ t.dev.tim.lastPulse = some u.now))) ∧
    (objGet s.dev 0x301005 ≠ 0 → extestOn s.dev = false → 64 < off.natAbs →
      (u.state = .locked → Completes .rtPulseEdge s (fun t => frame t ∧ missed t ∧ t.dev.tim.slew = u.slew)) ∧
      (u.state = .holdover → Completes .rtPulseEdge s (fun t => frame t ∧ missed t ∧ t.dev.tim.pulseHeld = false))) ∧
    (extestOn s.dev = true → exec .rtPulseEdge s = .next s) ∧
    Completes .rtPulseAbsent s (fun t => frame t ∧ t.dev.tim.pulseAbsent = true ∧ t.dev.tim.pulseHeld = false ∧
      t.dev.tim.slew = u.slew)

/-- R30 to R34. -/
def Obligations.TimeCells : Prop :=
  ∀ (i : Fin 6) (s : State), hubUp s.dev = true →
    let x := tpGet s.dev i
    let others (t : State) : Prop := ∀ j : Nat, j ≠ i.val → tpGet t.dev j = tpGet s.dev j
    (∀ c : Cell, portLocal s.dev (6 + i) = true → (portGet s.dev (6 + i)).k3 = false →
      let t1 : Int := payNat c 16 8
      let t2 : Int := payNat c 8 8
      let t3 : Int := payNat c 0 8
      let t4 : Int := s.dev.tim.count.toNat
      (payNat c 60 4 = (timeCheck c).toNat → payNat c 34 1 % 2 = 1 → (BitVec.ofNat 8 (objGet s.dev 0x301004)).getLsbD i = true →
        (∃ e ∈ x.reqs, e.1 = BitVec.ofNat 32 (payNat c 24 4) ∧ s.dev.tim.now ≤ e.2 + 4 * 2 ^ 16) → delayOk x.deltas ((t4 - t3) + (t2 - t1)) = true →
        Completes (.timeSync i c) s (fun t => Only [.tim, .cnt] s t ∧ others t ∧
          (tpGet t.dev i).est = some ((t4 - t3) - (t2 - t1)) ∧ (tpGet t.dev i).reqDue = true ∧
          (tpGet t.dev i).reqs = x.reqs ∧ t.dev.tim.count = s.dev.tim.count ∧ CountersGrow [objCnt 0x303001] s.dev t.dev)) ∧
      (payNat c 60 4 ≠ (timeCheck c).toNat → (BitVec.ofNat 8 (objGet s.dev 0x301004)).getLsbD i = true →
        Completes (.timeSync i c) s (fun t => Only [.tim, .cnt] s t ∧ others t ∧ (tpGet t.dev i).est = x.est ∧
          (tpGet t.dev i).reqDue = true ∧ CountersGrow [objCnt 0x303001, objCnt 0x303002] s.dev t.dev))) ∧
    (x.reqDue = true → portLocal s.dev (6 + i) = true → (portGet s.dev (6 + i)).k3 = false →
      Completes (.timeReq i) s (fun t => Only [.tim, .rtr] s t ∧ others t ∧ (tpGet t.dev i).reqDue = false ∧
        (tpGet t.dev i).reqNext = x.reqNext + 1 ∧ (tpGet t.dev i).reqs = x.reqs ∧
        ∀ p : Nat, spGet [] t.dev.rtr.outq p = (if p = 6 + i.val
          then spGet [] s.dev.rtr.outq p ++ [(ownInput, timeReqCell s.dev x.reqNext)] else spGet [] s.dev.rtr.outq p))) ∧
    (x.rejected = false → 16 ≤ x.outRun → s.dev.health.state ≠ .off →
      Completes (.timePortReject i) s (fun t => Only [.tim, .kmd, .hif, .cnt] s t ∧ others t ∧
        tpGet t.dev i = { x with rejected := true } ∧ EventSent 0x3004 (6 + i) 1 s.dev t.dev ∧
        t.dev.tim.evt.getLsbD 4 = true ∧ cntGet t.dev (objCnt 0x303003) = bumped (cntGet s.dev (objCnt 0x303003)))) ∧
    (x.rejected = true → 16 ≤ x.inRun → s.dev.health.state ≠ .off →
      Completes (.timePortReject i) s (fun t => Only [.tim, .kmd, .hif, .cnt] s t ∧ others t ∧
        tpGet t.dev i = { x with rejected := false } ∧ EventSent 0x3004 (6 + i) 0 s.dev t.dev)) ∧
    (x.rejected = false → x.outRun < 16 → exec (.timePortReject i) s = .next s)

/-! ### Cells at the NIC (R240 to R245, R253, R254, R259, R296 to R298, R319 to R327, R333, R347, R478) -/

/-- R240, R244, R253, R259, R260 and R325 to R327. -/
def Obligations.ArrivingWrites : Prop :=
  ∀ (c : Cell) (s : State) (slot k : Nat), s.dev.rst.clocksStopped = false →
    let g := 64 * c.offset.toNat
    let len := c.len.toNat + 1
    let n := c.counter.toNat
    let counters (v : Ctr) (t : State) : Prop := ∀ m, ctrGet t.dev m = if m = n then v else ctrGet s.dev m
    let back (cause off : Nat) (t : State) : Prop := Only [.rtr, .nic, .kmd, .cnt] s t ∧
      t.dev.nic.txq = s.dev.nic.txq ++ [noticeOf cause c] ∧ t.dev.nic.ctr = s.dev.nic.ctr ∧
      cntGet t.dev (nicBase + off) = bumped (cntGet s.dev (nicBase + off))
    let fits (p : Nat) : Prop := cellPasses c slot s.dev ∧ keyOf s.dev g = some k ∧ p + len ≤ 64 ∧
      aperture s.dev slot g true = true ∧ pageRetired s.dev g = false
    let turned (p : Nat) : Prop := cellPasses c slot s.dev ∧
      (64 < p + len ∨ aperture s.dev slot g true = false ∨ keyOf s.dev g = none)
    let stored (p : Nat) (v : Ctr) (t : State) : Prop :=
      Only [.mem, .memc, .rtr, .nic, .ports, .kmd, .cnt] s t ∧ AckOwed c t.dev ∧ counters v t ∧
        ∀ a, t.mem.byte a = if 64 * (k / 64) + p ≤ a ∧ a < 64 * (k / 64) + p + len
          then payByte c (a - (64 * (k / 64) + p)) else s.mem.byte a
    let place : Nat := (payByte c (posByte c)).toNat
    let same := ctrGet s.dev n
    let grown := ctrBumped same c.poison
    (c.op = 1 → fits 0 → ∃ t, exec (.write c) s = .next t ∧ stored 0 same t) ∧
    (c.op = 2 → fits 0 → ctrOwned s.dev slot n = true → untriggered s.dev n = true →
      ∃ t, exec (.writeC c) s = .next t ∧ stored 0 grown t) ∧
    (c.op = 3 → fits place → ∃ t, exec (.writePart c) s = .next t ∧ stored place same t) ∧
    (c.op = 4 → fits place → ctrOwned s.dev slot n = true → untriggered s.dev n = true →
      ∃ t, exec (.writePartC c) s = .next t ∧ stored place grown t) ∧
    (c.op = 5 → cellPasses c slot s.dev → ctrOwned s.dev slot n = true → untriggered s.dev n = true →
      ∃ t, exec (.notify c) s = .next t ∧ Only [.rtr, .nic, .ports, .kmd, .cnt] s t ∧ AckOwed c t.dev ∧
        counters (if c.poison then ⟨same.val, true⟩ else ctrBumped same false) t) ∧
    (c.op = 1 → turned 0 → Completes (.write c) s (back 2 0x860)) ∧
    (c.op = 2 → (turned 0 ∨ (cellPasses c slot s.dev ∧ ctrOwned s.dev slot n = false)) →
      Completes (.writeC c) s (back 2 0x860)) ∧
    (c.op = 3 → turned place → Completes (.writePart c) s (back 2 0x860)) ∧
    (c.op = 4 → (turned place ∨ (cellPasses c slot s.dev ∧ ctrOwned s.dev slot n = false)) →
      Completes (.writePartC c) s (back 2 0x860)) ∧
    (c.op = 5 → cellPasses c slot s.dev → ctrOwned s.dev slot n = false → Completes (.notify c) s (back 2 0x860)) ∧
    (c.bounce = false → k3Check c s.dev = none → slotOfId s.dev c.ctx.toNat = none →
      (c.op = 1 → Completes (.write c) s (back 3 0x858)) ∧ (c.op = 2 → Completes (.writeC c) s (back 3 0x858)) ∧
      (c.op = 3 → Completes (.writePart c) s (back 3 0x858)) ∧ (c.op = 4 → Completes (.writePartC c) s (back 3 0x858)) ∧
      (c.op = 5 → Completes (.notify c) s (back 3 0x858)))

/-- R240, R259, R320, R323, R324 and R478. -/
def Obligations.ArrivingRequests : Prop :=
  ∀ (c : Cell) (s : State) (slot k : Nat), s.dev.rst.clocksStopped = false →
    let g := 64 * c.offset.toNat
    let answered (op : BitVec 6) (poison : Bool) (bytes : List Byte) (t : State) : Prop := ∃ a,
      t.dev.nic.txq = s.dev.nic.txq ++ [a] ∧ a.op = op ∧ a.dst = c.src ∧ a.ctx = c.ctx ∧ a.gen = c.gen ∧ a.seq = c.seq ∧
        a.cls = c.cls ∧ a.bounce = false ∧ a.poison = poison ∧ ∀ i, i < 60 → i < bytes.length → some (payByte a i) = bytes[i]?
    let frame (l : List Part) (t : State) : Prop := Only (l ++ [.memc, .rtr, .nic, .ports, .kmd, .cnt]) s t
    (c.op = 8 → cellPasses c slot s.dev →
      let p := payNat c 5 1
      let n := c.len.toNat + 1
      p + n ≤ 64 → keyOf s.dev g = some k → aperture s.dev slot g false = true →
      ∃ t, exec (.getReq c) s = .next t ∧ frame [] t ∧
        answered 9 (decide ((granAt s (g + p)).1 ≠ .ok)) (((granAt s (g + p)).2.drop p).take n) t) ∧
    (c.op = 0xA → cellPasses c slot s.dev → keyOf s.dev g = some k → aperture s.dev slot g true = true →
      let fn := payNat c 16 1
      let ty := payNat c 17 1
      let n := atomicSize ty
      let p := payNat c 24 1
      let x := payNat c 0 8
      let old := leNat (((granAt s (g + p)).2.drop p).take n)
      let value := if fn = 0 then (old + x) % 2 ^ 64 else if fn = 1 then old &&& x else if fn = 2 then old ||| x
        else if fn = 3 then x else if fn = 4 then (if old = payNat c 8 8 then x else old)
        else if ty = 1 then fAdd fp32 .nearest old (x % 2 ^ 32) else fAdd bf16 .nearest old (x % 2 ^ 16)
      let rest := payNat c 26 ((if c.k3 then 60 else 64) - 26)
      p + n ≤ 64 →
      ((fn ≤ 4 ∧ ty = 0 ∨ fn = 5 ∧ (ty = 1 ∨ ty = 2)) → p % n = 0 → rest = 0 → payNat c 25 1 ≤ 1 → (granAt s (g + p)).1 = .ok →
        (fn ≠ 5 ∨ reproSlot s.dev slot = false) →
        ∃ t, exec (.atomicReq c) s = .next t ∧ frame [.mem] t ∧ answered 0xB false (leBytes 8 old) t ∧
          ∀ a, t.mem.byte a = if 64 * (k / 64) + p ≤ a ∧ a < 64 * (k / 64) + p + n
            then ((leBytes n value)[a - (64 * (k / 64) + p)]?).getD 0 else s.mem.byte a) ∧
      (¬ (fn ≤ 4 ∧ ty = 0 ∨ fn = 5 ∧ (ty = 1 ∨ ty = 2)) ∨ p % n ≠ 0 ∨ rest ≠ 0 ∨ 1 < payNat c 25 1 →
        Completes (.atomicReq c) s (fun t => Only [.rtr, .nic, .kmd, .cnt] s t ∧
          t.dev.nic.txq = s.dev.nic.txq ++ [noticeOf 2 c])) ∧
      (fn = 5 → (ty = 1 ∨ ty = 2) → p % n = 0 → rest = 0 → payNat c 25 1 ≤ 1 → reproSlot s.dev slot = true →
        (runKeys s.dev (g + p) (objGet s.dev 0x604002)).any (fun q => keyBefore (c.src.toNat, c.seq.toNat) q) = false →
        Completes (.atomicReq c) s (fun t => Only [.rtr, .nic, .kmd, .cnt] s t ∧ t.dev.nic.txq = s.dev.nic.txq ∧
          t.dev.nic.heldAtomics = s.dev.nic.heldAtomics ++
            [⟨c, slot, g + p, s.dev.tim.now, objGet s.dev 0x604002⟩]))) ∧
    (∀ (h : HeldAtomic) (r : List HeldAtomic), s.dev.nic.heldAtomics = h :: r → (∀ e ∈ r, e.pa ≠ h.pa) →
      payNat h.cell 16 1 = 5 → payNat h.cell 17 1 = 1 → h.pa % 64 + 4 ≤ 64 → (granAt s h.pa).1 = .ok →
      keyOf s.dev (64 * (h.pa / 64)) = some k →
      Completes .reproAtomicHold s (fun t => Only [.mem, .memc, .nic, .ports, .tim, .cnt] s t ∧
        t.dev.nic.heldAtomics = r ∧
        ∀ a, t.mem.byte a = if 64 * (k / 64) + h.pa % 64 ≤ a ∧ a < 64 * (k / 64) + h.pa % 64 + 4
          then ((leBytes 4 (fAdd fp32 .nearest (leNat (((granAt s h.pa).2.drop (h.pa % 64)).take 4)) (payNat h.cell 0 8 % 2 ^ 32)))[
            a - (64 * (k / 64) + h.pa % 64)]?).getD 0
          else s.mem.byte a))

/-- R244, R254, R259, R297, R320, R324, R333, R334 and R347. -/
def Obligations.AnswersAndTimeouts : Prop :=
  ∀ (s : State) (o : OutCell) (id : Nat) (x : Item) (c : Cell), s.dev.rst.clocksStopped = false →
    let d := s.dev.nic
    let q := o.cell
    let confirmed : Item := { x with confirmed := x.confirmed + 1 }
    let failed (st cause : Nat) : Item := if x.failed = 0
      then { x with failed := 1, firstFail := st, firstCause := cause } else { x with failed := x.failed + 1 }
    let gone (i : Item) (t : State) : Prop := t.dev.nic.resend = d.resend.filter (fun e => e != o) ∧
      itemFind t.dev id = some i ∧ t.dev.nic.txq = d.txq
    let frame (t : State) : Prop := Only [.rtr, .nic, .ports, .kmd, .cnt] s t
    let again (p : OutCell) (replay : Bool) (off : Nat) (t : State) : Prop := Only [.rtr, .nic, .kmd, .cnt] s t ∧
      t.dev.nic.resend = d.resend.map (fun e => if e = o then p else e) ∧
      (let r : OutCell := { p with cell := k3Seal { q with hops := 63, replay := replay } }
      if q.cls = 0 ∧ expRoom s.dev q.dst.toNat = false then t.dev.nic.expq = d.expq ++ [r] ∧ t.dev.nic.txq = d.txq
      else t.dev.nic.txq = d.txq ++ [r.cell] ∧ t.dev.nic.expq = d.expq) ∧
      cntGet t.dev (nicBase + off) = bumped (cntGet s.dev (nicBase + off))
    outFind s.dev q.dst.toNat q.ctx.toNat q.gen.toNat q.seq.toNat = some o → o.owner = .item id → itemWaits s.dev id x →
    d.waitq = [] → c.src = q.dst → c.ctx = q.ctx → c.gen = q.gen → k3Check c s.dev = none →
    (c.bounce = false → c.seq = q.seq → c.poison = false →
      (∀ (pa k : Nat), c.op = 9 → q.op = 8 → o.place = .bytes pa → pa % 64 + q.len.toNat + 1 ≤ 64 →
        keyOf s.dev (64 * (pa / 64)) = some k → pageRetired s.dev (64 * (pa / 64)) = false →
        Completes (.getRsp c) s (fun t => Only [.mem, .memc, .rtr, .nic, .ports, .kmd, .cnt] s t ∧ gone confirmed t ∧
          ∀ a, t.mem.byte a = if 64 * (k / 64) + pa % 64 ≤ a ∧ a < 64 * (k / 64) + pa % 64 + q.len.toNat + 1
            then payByte c (a - (64 * (k / 64) + pa % 64)) else s.mem.byte a)) ∧
      (c.op = 0xB → q.op = 0xA → o.place = .none → Completes (.atomicRsp c) s (fun t => frame t ∧ gone confirmed t))) ∧
    (c.bounce = false → c.op = 0xC → payNat c 0 2 = 1 → payNat c 2 2 = q.seq.toNat →
      Completes (.ack c) s (fun t => frame t ∧ gone confirmed t ∧
        cntGet t.dev (nicBase + 0x818) = bumped (cntGet s.dev (nicBase + 0x818)))) ∧
    (c.bounce = true → c.seq = q.seq → c.op = q.op → q.op.toNat ∉ [9, 0xB, 0xC] → o.place = .none →
      (c.len = 0 ∨ c.len = 6 → o.resends < objGet s.dev 0x420005 →
        Completes (.bounceNotice c) s (again { o with resends := o.resends + 1 } false 0x830)) ∧
      (∀ e ∈ [(1, 6), (2, 6), (3, 4), (4, 1), (5, 3), (8, 1)], c.len.toNat = e.1 →
        Completes (.bounceNotice c) s (fun t => frame t ∧ gone (failed e.2 e.1) t))) ∧
    (o.place = .none → q.k3 = false → Completes (.itemTimeout q.dst q.ctx q.gen q.seq) s (fun t =>
      Only [.nic, .cnt] s t ∧ gone (failed (if o.lostDepart then 3 else 7) 0xFF) t ∧
      cntGet t.dev (nicBase + 0x910) = bumped (cntGet s.dev (nicBase + 0x910)))) ∧
    (q.k3 = true → o.k3sends < 3 →
      Completes (.k3Resend q.dst q.ctx q.gen q.seq) s (again { o with k3sends := o.k3sends + 1 } true 0x8A8)) ∧
    (o.place = .none → q.k3 = true → 3 ≤ o.k3sends → Completes (.k3Resend q.dst q.ctx q.gen q.seq) s (fun t =>
      Only [.nic, .cnt] s t ∧ gone (failed 7 0xFF) t)) ∧
    (o.parked = true → Completes (.earlyFullRetry q.dst q.ctx q.gen q.seq) s (fun t =>
      again { o with parked := false, early := o.early + 1 } false 0x978 t ∧
      cntGet t.dev (nicBase + 0x830) = bumped (cntGet s.dev (nicBase + 0x830)))) ∧
    (o.parked = false → exec (.earlyFullRetry q.dst q.ctx q.gen q.seq) s = .next s)

/-- R240, R242 and R244. -/
def Obligations.AcksAndFlows : Prop :=
  ∀ (s : State), s.dev.rst.clocksStopped = false →
    (∀ (src ctx : BitVec 12) (gen : BitVec 4) (cls : BitVec 2) (e : AckEnt),
      s.dev.nic.acks.find? (fun e => e.src == src.toNat && e.ctx == ctx.toNat && e.gen == gen.toNat && e.cls == cls.toNat) =
        some e → e.seqs.length ≤ 31 → (∀ q ∈ e.seqs, q < 2 ^ 16) →
      Completes (.ackDelay src ctx gen cls) s (fun t => Only [.nic, .cnt] s t ∧
        t.dev.nic.acks = s.dev.nic.acks.filter (fun x => x != e) ∧ CountersGrow [nicBase + 0x810] s.dev t.dev ∧
        ∃ a, t.dev.nic.txq = s.dev.nic.txq ++ [a] ∧ a.op = 0xC ∧ a.dst = src ∧ a.ctx = ctx ∧ a.gen = gen ∧ a.cls = cls ∧
          payNat a 0 2 = e.seqs.length ∧ ∀ i, i < 29 → i < e.seqs.length → some (payNat a (2 + 2 * i) 2) = e.seqs[i]?)) ∧
    (∀ (dst ctx : BitVec 12) (gen : BitVec 4),
      let mine (o : OutCell) : Bool := o.cell.dst == dst && o.cell.ctx == ctx && o.cell.gen == gen
      let n := s.dev.nic
      ((n.resend ++ n.waitq ++ n.expq).all (fun o => !(mine o)) = true →
        Completes (.flowForget dst ctx gen) s (fun t => Only [.nic] s t ∧
          t.dev.nic = { n with flows := t.dev.nic.flows } ∧
          ∀ f, f ∈ t.dev.nic.flows ↔ f ∈ n.flows ∧ ¬(f.dst = dst.toNat ∧ f.ctx = ctx.toNat ∧ f.gen = gen.toNat))) ∧
      ((n.resend ++ n.waitq ++ n.expq).any mine = true → exec (.flowForget dst ctx gen) s = .next s)) ∧
    (∀ (c : Cell), c.op = 0x20 → c.bounce = false → Completes (.mgmt c) s (fun t => Only [.rtr] s t ∧
      t.dev.rtr = { s.dev.rtr with toHmp := s.dev.rtr.toHmp.erase c }))

/-! ### Descriptors, collective operations, windows and counters (R45, R262, R314 to R356, R482 to R485) -/

/-- R314, R318 to R324 and R337. -/
def Obligations.DataDescriptors : Prop :=
  ∀ (s : State) (e : DqEnt) (x : BitVec 512) (ue : Option Nat), s.dev.rst.clocksStopped = false →
    let r := entRead e { s with dev := dqDrop e s.dev }
    let n := s.dev.nic
    nicHead s = some e → r.1 = some x → scrubbing s.dev e.slot = false →
    let check (soc : Bool) : Except Nat Nat := (dataCheck r.2 e.slot x (entLctr e x) soc e.descPa.isNone).1
    let k3 := k3Node s.dev (descDst x)
    let frame (t : State) : Prop := t.pending = s.pending ∧ (∀ a, t.mem.byte a = s.mem.byte a) ∧ t.dev.nic.dq = dqErase e n.dq
    let started (count : Nat) (l : List Cell) (it : Item) (t : State) : Prop := frame t ∧
      t.dev.nic.items = n.items ++ [it] ∧ it.cells = count ∧ it.tag = descTag x ∧ it.slot = e.slot ∧
      it.kind = descKind (descOp x) ∧ it.confirmed = 0 ∧ it.failed = 0 ∧ t.dev.nic.txq = n.txq ++ l ∧ l.length = count ∧
      t.dev.nic.resend.length = n.resend.length + count ∧
      ∀ c ∈ l, c.dst = BitVec.ofNat 12 (descDst x) ∧ c.src = s.dev.rtr.node ∧ c.cls = BitVec.ofNat 2 (descClass x) ∧
        cellCtx c = ctxWord s.dev e.slot % 2 ^ 16
    (descClass x ≠ 0 → itemFind s.dev n.itemNext = none →
      (∀ pa, descOp x = 1 → e.image = none → check false = .ok pa →
        let spans := writeSpans k3 (descRaddr x) (descLen x)
        n.resend.length + spans.length ≤ resendCap →
        Completes (.put ue) s (fun t => ∃ l it, started spans.length l it t ∧ ∀ (i a m : Nat), spans[i]? = some (a, m) →
          ∃ c, l[i]? = some c ∧ c.len.toNat + 1 = m ∧ c.offset = BitVec.ofNat 35 (a / 64) ∧
            ∀ j, j < m → some (payByte c j) = (peekBytes s pa (descLen x))[a - descRaddr x + j]?)) ∧
      (∀ pa img, descOp x = 1 → e.image = some img → check true = .ok pa →
        let pieces := socPieces (descRaddr x) img k3
        pieces ≠ [] → n.resend.length + pieces.length ≤ resendCap →
        Completes (.put ue) s (fun t => ∃ l it, started pieces.length l it t)) ∧
      (∀ pa, descOp x = 2 → e.image = none → check false = .ok pa →
        let spans := readSpans k3 (descRaddr x) (descLen x)
        n.resend.length + spans.length ≤ resendCap →
        Completes .get s (fun t => ∃ l it, started spans.length l it t ∧ ∀ (i a m : Nat), spans[i]? = some (a, m) →
          ∃ c, l[i]? = some c ∧ c.op = 8 ∧ c.len.toNat + 1 = m ∧ c.offset = BitVec.ofNat 35 (a / 64))) ∧
      (∀ pa, descOp x = 3 → e.image = none → check false = .ok pa → n.resend.length < resendCap →
        Completes .atomic s (fun t => ∃ c it, started 1 [c] it t ∧ c.op = 0xA ∧
          c.offset = BitVec.ofNat 35 (descRaddr x / 64) ∧ payNat c 0 8 = dField x 40 8 ∧ payNat c 8 8 = dField x 48 8 ∧
          payNat c 16 1 = descFn x ∧ payNat c 17 1 = descTy x ∧ payNat c 24 1 = descRaddr x % 64)) ∧
      (∀ pa, descOp x = 4 → e.image = none → check false = .ok pa → n.resend.length < resendCap →
        Completes .notifyDescriptor s (fun t => ∃ c it, started 1 [c] it t ∧ c.op = 5 ∧ c.last = true ∧
          c.counter = BitVec.ofNat 12 ((descRctr x).getD 0)))) ∧
    (∀ row ∈ [(Instr.put ue, 1), (.get, 2), (.atomic, 3), (.notifyDescriptor, 4)], ∀ cause,
      descOp x = row.2 → check e.image.isSome = .error cause → entLctr e x = none →
      Completes row.1 s (fun t => t.dev.nic.dq = dqErase e n.dq ∧ t.dev.nic.items = n.items ∧ t.dev.nic.txq = n.txq ∧
        ((∃ h, spGet [] t.dev.nic.held e.slot = [h] ∧ h.record.extractLsb' 64 8 = 0x0D ∧
            h.record.extractLsb' 80 8 = BitVec.ofNat 8 cause) ∨
          spGet 0 t.dev.nic.cqProd e.slot = spGet 0 n.cqProd e.slot + 1)))

/-- R338, R343 to R345, R348, R349 and R351. -/
def Obligations.CollectiveStarts : Prop :=
  ∀ (s : State) (e : DqEnt) (x : BitVec 512) (ue : Option Nat), s.dev.rst.clocksStopped = false →
    let r := entRead e { s with dev := dqDrop e s.dev }
    let n := s.dev.nic
    let key : CollKey := (ctxWord s.dev e.slot, cdGroup x, cdNum x)
    nicHead s = some e → r.1 = some x → scrubbing s.dev e.slot = false →
    let q := readGroup e.slot (cdGroup x) r.2
    let z := startCause q.2 e x q.1
    (∀ g pa, q.1 = some g → z.1 = none → let w := localCause z.2 e.slot (cdDst x) (dstLen x g.nodes.length) true true
      w.1 = .ok pa →
      let bare := n.vest.all (fun c => collKeyOf c != key) && (contribsFor key n.contribWait s.dev).isEmpty
      let joined (kind : CollKind) (t : State) : Prop := ∃ i, Only [.nic, .memc, .lnd, .cnt] s t ∧
        t.dev.nic.insts = n.insts ++ [i] ∧ i.key = key ∧ i.kind = kind ∧ i.rank = g.rank ∧ i.nodes = g.nodes ∧
        i.root = cdRoot x ∧ i.dst = pa ∧ i.len = descLen x ∧ i.finishSent = false ∧
        i.deadline = (if deadlinesSuspended s.dev.tim then 0 else cdDeadline x)
      (∀ row ∈ [(Instr.bcast ue, 0x10), (.reduce ue, 0x11), (.exchange ue, 0x12)], descOp x = row.2 →
        Completes row.1 s (fun t => cntGet t.dev (nicBase + 0x950) = bumped (cntGet s.dev (nicBase + 0x950)) ∧
          ((∃ i ∈ t.dev.nic.insts, i.key = key) ∨ key ∈ t.dev.nic.doneInst))) ∧
      (bare = true → descOp x = 0x10 → g.rank ≠ cdRoot x →
        Completes (.bcast ue) s (fun t => joined .bcast t ∧ t.dev.nic.txq = n.txq)) ∧
      (bare = true → descOp x = 0x11 → cdContrib x = true →
        Completes (.reduce ue) s (fun t => joined .reduce t ∧ t.dev.nic.txq = n.txq)) ∧
      (bare = true → descOp x = 0x12 → ue = none → 
        (peekSends w.2 e.slot (cdSrc x) g.nodes.length).1.map Prod.fst = List.replicate g.nodes.length 0 →
        n.resend.length + g.nodes.length ≤ resendCap →
        Completes (.exchange ue) s (fun t => joined .exchange t ∧ ∃ l, t.dev.nic.txq = n.txq ++ l ∧
          l.length = g.nodes.length ∧ ∀ c ∈ l, c.op = 0x11 ∧ c.cls = 1 ∧ payNat c 0 4 = 0))) ∧
    (∀ pa, descOp x = 0x13 → (contribCheck r.2 e x (instFind s.dev key)).1 = .ok pa →
      (instFind s.dev key = none → Completes (.contrib ue) s (fun t => Only [.nic, .memc, .cnt] s t ∧
        t.dev.nic.contribWait = n.contribWait ++ [({ e with desc := x }, pa)] ∧ t.dev.nic.txq = n.txq)) ∧
      (∀ y, instFind s.dev key = some y → ue = none → e.image = none →
        let c := cdDst x / 64
        descLen x = (if y.bf16 then 32 else 64) → (y.chunk c).done = false →
        y.inputs.any (fun v => v != y.me && !((y.chunk c).arr.any (fun a => a.1 == v))) = true →
        Completes (.contrib ue) s (fun t => ∃ z, instFind t.dev key = some z ∧
          (z.chunk c).arr = (y.chunk c).arr ++ [(y.me, inputVals y.bf16 (peekBytes s pa (descLen x)))] ∧
          (z.chunk c).done = false)))

/-- R346, R348, R349, R351 to R355. -/
def Obligations.CollectiveCells : Prop :=
  (∀ (c : Cell) (s : State) (slot : Nat), s.dev.rst.clocksStopped = false → cellPasses c slot s.dev → vestUsed s.dev < vestCap →
    let n := s.dev.nic
    let key := collKeyOf c
    let ch := collChunk c
    let len := c.len.toNat + 1
    let frame (l : List Part) (t : State) : Prop := Only (l ++ [.rtr, .nic, .ports, .kmd, .cnt]) s t ∧ AckOwed c t.dev
    (∀ x r, instFind s.dev key = some x → x.rankOfNode c.src.toNat = some r →
      let v := x.virt r
      let xs := xslotGet x r
      let ended (t : State) : Prop := AckOwed c t.dev ∧ instFind t.dev key = none ∧ key ∈ t.dev.nic.doneInst
      (∀ k, c.op = 0x10 → x.kind = .bcast → x.parent = some v → ch ∉ x.got → x.got.length + 1 < x.nchunks →
        ch < x.nchunks → x.resCtr = none → let pa := x.dst + 64 * ch
        pa % 64 + len ≤ 64 → keyOf s.dev (64 * (pa / 64)) = some k → pageRetired s.dev (64 * (pa / 64)) = false →
        Completes (.collData c) s (fun t => frame [.mem, .memc] t ∧
          (∃ y, instFind t.dev key = some y ∧ y.got = x.got ++ [ch] ∧ y.poison = (x.poison || c.poison)) ∧
          ∀ a, t.mem.byte a = if 64 * (k / 64) + pa % 64 ≤ a ∧ a < 64 * (k / 64) + pa % 64 + len
            then payByte c (a - (64 * (k / 64) + pa % 64)) else s.mem.byte a)) ∧
      (c.op = 0x10 → x.kind = .reduce → x.inputs.contains v = true → ch < x.nchunks → (x.chunk ch).done = false →
        (x.chunk ch).arr.any (fun a => a.1 == v) = false →
        x.memberOrder.any (fun w => w != v && !((x.chunk ch).arr.any (fun a => a.1 == w))) = true →
        Completes (.collData c) s (fun t => frame [] t ∧ ∃ y, instFind t.dev key = some y ∧
          (y.chunk ch).arr = (x.chunk ch).arr ++ [(v, chunkVals (payBytes c 0 64))] ∧ (y.chunk ch).done = false)) ∧
      (c.op = 0x10 → x.kind = .exchange → xs.complete = false → xs.sent = none → reproSlot s.dev x.slot = false →
        xs.items.any (fun e => e.1 == ch) = false → xs.valid < x.cap →
        Completes (.collData c) s (fun t => ∃ y, instFind t.dev key = some y ∧
          (xslotGet y r).items = xs.items ++ [(ch, some xs.valid)] ∧ (xslotGet y r).placed = xs.placed + 1)) ∧
      (c.op = 0x11 → x.kind = .exchange → xs.sent = none → xs.complete = false → payNat c 0 4 ≤ 32768 →
        xs.placed + xs.dropped ≠ payNat c 0 4 * (x.len / 64) →
        Completes (.collHdr c) s (fun t => frame [] t ∧ ∃ y, instFind t.dev key = some y ∧
          xslotGet y r = { xs with sent := some (payNat c 0 4) })) ∧
      (c.op = 0x12 → payNat c 0 1 = 1 → x.partDone = false →
        Completes (.finish c) s (fun t => frame [] t ∧ ∃ y, instFind t.dev key = some y ∧ y.finished = x.finished ++ [r])) ∧
      (c.op = 0x12 → payNat c 0 1 = 2 → Completes (.doneMsg c) s ended) ∧
      (c.op = 0x12 → payNat c 0 1 = 3 → Completes (.abortMsg c) s ended) ∧
      (c.op = 0x12 → payNat c 0 1 = 4 → x.partDone = false →
        Completes (.overflow c) s (fun t => frame [] t ∧ ∃ y, instFind t.dev key = some y ∧
          y.overflow = x.overflow + payNat c 4 4))) ∧
    (∀ row ∈ [(Instr.collData c, 0x10, 0), (.collHdr c, 0x11, 0), (.finish c, 0x12, 1), (.doneMsg c, 0x12, 2),
        (.abortMsg c, 0x12, 3), (.overflow c, 0x12, 4)], c.op.toNat = row.2.1 →
      (row.2.2 ≠ 0 → payNat c 0 1 = row.2.2) → instFind s.dev key = none →
      (key ∉ n.doneInst → Completes row.1 s (fun t => frame [] t ∧ t.dev.nic.vest = n.vest ++ [c])) ∧
      (key ∈ n.doneInst → Completes row.1 s (fun t => frame [] t ∧ t.dev.nic.vest = n.vest ∧
        cntGet t.dev (nicBase + 0x980) = bumped (cntGet s.dev (nicBase + 0x980)))))) ∧
  (∀ (s : State) (ctx : BitVec 16) (group : BitVec 12) (num : BitVec 8),
    let key : CollKey := (ctx.toNat, group.toNat, num.toNat)
    (∀ x, instFind s.dev key = some x →
      (s.dev.rst.clocksStopped = false → x.finishSent = true ∨ x.rank = x.root ∧ x.partDone = true →
        Completes (.collDoneTimeout ctx group num) s (fun t => instFind t.dev key = none ∧ key ∈ t.dev.nic.doneInst)) ∧
      (x.finishSent = false → x.partDone = false → exec (.collDoneTimeout ctx group num) s = .next s)) ∧
    (instFind s.dev key = none → exec (.collDoneTimeout ctx group num) s = .next s))

/-- R45, R262, R325, R328, R337, R356, R483 and R485. -/
def Obligations.WindowsAndCounters : Prop :=
  ∀ (s : State), s.dev.rst.clocksStopped = false →
    let n := s.dev.nic
    let now := s.dev.tim.count.toNat
    let due : Nat := if now / 1024 = s.dev.tim.expWin then now + (1024 - now % 1024) else now + (1024 - now % 1024) % 1024
    let tick : Nat := now + (64 - now % 64) % 64
    (hubUp s.dev = true →
      (n.expq = [] → Completes .expressWindowBoundary s (fun t => Only [.nic, .tim, .kmd, .hif, .cnt] s t ∧
        t.dev.tim.count = BitVec.ofNat 64 due ∧
        t.dev.nic = { n with expOut := 0, expTo := [], expIn := 0, expBudget := objGet s.dev 0x420003
                             expAlloc := blobGet s.dev 0x420004 [] })) ∧
      (∀ o, n.expq = [o] → expRoute s.dev o.cell.dst.toNat = true → 0 < objGet s.dev 0x420003 →
        0 < (((blobGet s.dev 0x420004 [])[o.cell.dst.toNat]?).getD 0).toNat → n.resend.length < resendCap →
        Completes .expressWindowBoundary s (fun t => Only [.nic, .tim, .kmd, .hif, .cnt] s t ∧ t.dev.nic.expq = [] ∧
          t.dev.nic.expOut = 1 ∧ t.dev.nic.txq = n.txq ++ [o.cell])) ∧
      (n.insts.all (fun x => x.deadline == 0 || decide (tick < x.deadline) || x.partDone || x.finishSent) = true →
        tick < 2 ^ 64 →
        Completes .deadlineReached s (fun t => Only [.tim] s t ∧ t.dev.tim.count = BitVec.ofNat 64 tick)) ∧
      (∀ x, n.insts = [x] → x.deadline ≠ 0 → ceilDiv x.deadline 64 * 64 ≤ tick → tick < 2 ^ 64 → x.partDone = false →
        x.finishSent = false → s.dev.tim.state = .locked → x.lctr = none →
        n.resend.length + x.others.length ≤ resendCap →
        Completes .deadlineReached s (fun t => t.dev.nic.insts = [] ∧ x.key ∈ t.dev.nic.doneInst ∧
          cntGet t.dev (nicBase + 0x960) = bumped (cntGet s.dev (nicBase + 0x960)) ∧
          ∃ l, t.dev.nic.txq = n.txq ++ l ∧ l.length = x.others.length ∧
            ∀ c ∈ l, c.op = 0x12 ∧ payNat c 0 1 = 3 ∧ payNat c 1 1 = 8))) ∧
    (∀ (ctr : BitVec 12) (ctx : BitVec 16) (m : Nat), slotOf s.dev ctx.toNat = some m →
      let v := ctrGet s.dev ctr.toNat
      (ctrOwned s.dev m ctr.toNat = true → untriggered s.dev ctr.toNat = true → ∀ row ∈
        [(CtrOp.increment, ctrBumped v false), (CtrOp.errorFlag, ⟨v.val, true⟩)],
        Completes (.counterUpdate ctr ctx row.1) s (fun t => Only [.nic, .cnt] s t ∧
          t.dev.nic = { n with ctr := t.dev.nic.ctr } ∧
          ∀ i, ctrGet t.dev i = if i = ctr.toNat then row.2 else ctrGet s.dev i)) ∧
      (ctrOwned s.dev m ctr.toNat = false → ∀ o, exec (.counterUpdate ctr ctx o) s = .next s)) ∧
    (∀ (slot : Fin 32),
      let prod := (spGet 0 n.cqProd slot).toNat
      let pa := fieldN (ctxCfg s.dev slot) 175 128 + 32 * (prod % cqSize s.dev slot)
      (spGet [] n.held slot = [] → exec (.cqRoom slot) s = .next s) ∧
      (∀ h k, spGet [] n.held slot = [h] → h.lctr = none → (cqRoom s slot).1 = true → pa % 64 + 32 ≤ 64 →
        keyOf s.dev (64 * (pa / 64)) = some k → pageRetired s.dev (64 * (pa / 64)) = false →
        Completes (.cqRoom slot) s (fun t => Only [.mem, .memc, .nic, .cnt] s t ∧ spGet [] t.dev.nic.held slot = [] ∧
          spGet 0 t.dev.nic.cqProd slot = BitVec.ofNat 64 (prod + 1) ∧
          ∀ a, t.mem.byte a = if 64 * (k / 64) + pa % 64 ≤ a ∧ a < 64 * (k / 64) + pa % 64 + 32
            then h.record.extractLsb' (8 * (a - (64 * (k / 64) + pa % 64))) 8 else s.mem.byte a)) ∧
      ((cqRoom s slot).1 = false → Completes (.cqRoom slot) s (fun t => Only [.memc, .cnt] s t))) ∧
    (∀ (c : Cell) (slot : Nat), cellPasses c slot s.dev → c.op = 0x18 → s.dev.ls.ctx = c.ctx.toNat →
      s.dev.ls.partner = c.src.toNat → s.dev.ls.state = 2 → s.dev.ls.mine = [] →
      (∀ i ∈ [1, 2, 3], payNat c (16 * i) 2 = 0xFFFD) →
      (payNat c 0 2 ≠ 0xFFFD → payNat c 0 2 ≠ 0xFFFE → Completes (.digest c) s (fun t => Only [.rtr, .nic, .ports, .kmd, .ls, .cnt] s t ∧
        t.dev.ls = { s.dev.ls with recv := s.dev.ls.recv ++ [⟨0, payNat c 0 2, payNat c 2 2 % 4096, payNat c 4 4,
          BitVec.ofNat 64 (payNat c 8 8), 0, s.dev.tim.now⟩] })) ∧
      (payNat c 0 2 = 0xFFFE → Completes (.digest c) s (fun t => Only [.rtr, .nic, .ports, .kmd, .ls, .cnt] s t ∧
        t.dev.ls = { s.dev.ls with state := 3, endCause := 3, localDetect := false }))) ∧
    (s.dev.ls.state = 2 → (s.dev.ls.mine ≠ [] ∨ s.dev.ls.recv ≠ []) → Completes .lsPartnerAbsent s (fun t =>
      Only [.ls, .kmd, .tim, .cnt] s t ∧ (∃ r ∈ s.dev.ls.mine ++ s.dev.ls.recv, r.at_ + 10 ^ 6 ≤ t.dev.tim.now) ∧
      t.dev.ls = { s.dev.ls with state := 4, endCause := 4, mine := [], recv := [] })) ∧
    (s.dev.ls.state ≠ 2 → exec .lsPartnerAbsent s = .next s)

/-! ### Ports and the router (R239 to R258, R272 to R306) -/

/-- R256, R276 to R278, R285 to R289, R291, R292 and R295. -/
def Obligations.UnitsAndLinkSlots : Prop :=
  ∀ (p : Fin 16) (s : State), portsRun s.dev p = true →
    let x := portGet s.dev p
    let q := spGet [] s.dev.rtr.outq p
    let rerouted (t : State) : Prop := spGet [] t.dev.rtr.outq p = [] ∧
      t.dev.rtr.back = q.filter (fun e => e.1 != ownInput) ++ s.dev.rtr.back
    let staged (l : List Cell) (t : State) : Prop := ∀ m : Nat, spGet [] t.dev.rtr.staging m =
      if m = p.val then spGet [] s.dev.rtr.staging p ++ l else spGet [] s.dev.rtr.staging m
    (∀ u : UnitIn, x.st = .active → x.k3 = false →
      (p.val < 6 ∨ 11 < p.val ∨ (x.badUnits < objGet s.dev 0x440008 ∧ ∀ l, l < 4 → (laneGet x l).corr + u.corr.sum ≤ objGet s.dev 0x440007)) →
      (∀ l, l < 4 → (laneGet x l).badRun + u.uncorr.count true < 4) →
      (unitGood u = true → u.useq = x.ack + 1 → x.beyond = [] → x.highest = x.ack → u.nak = u.ack →
        (∀ e ∈ u.slots, e = .link 0 0 0 ∨ ∃ c : Cell, e = .cell c ∧ c.op.toNat < 0x3C ∧ arriveFate s.dev p c = .route) →
        Completes (.unitReceive p u) s (fun t => Only [.ports, .rtr, .cnt] s t ∧ staged (slotCells u.slots) t ∧
          (portGet t.dev p).ack = u.useq ∧ (portGet t.dev p).nak = u.useq ∧ (portGet t.dev p).rxAck = u.ack ∧
          (portGet t.dev p).st = .active ∧
          (∀ e, e ∈ (portGet t.dev p).retry ↔ e ∈ x.retry ∧ 2 ^ 15 ≤ (u.ack - e.useq).toNat) ∧
          cntGet t.dev (prtBase p + 0x108) = bumped (cntGet s.dev (prtBase p + 0x108)))) ∧
      (unitGood u = false → Completes (.unitReceive p u) s (fun t => Only [.ports, .cnt] s t ∧
        (portGet t.dev p).st = .active ∧ (portGet t.dev p).ack = x.ack ∧ (portGet t.dev p).nak = x.ack + 1 ∧
        (x.highest = x.ack → (portGet t.dev p).highest = x.ack + 1) ∧
        cntGet t.dev (prtBase p + 0x110) = bumped (cntGet s.dev (prtBase p + 0x110))))) ∧
    (x.st = .active → byCredit x = false →
      (∀ u, x.replayReq = some u → (x.retry.any (fun e => e.useq == u) = true) →
        Completes (.unitTransmit p) s (fun t => Only [.ports, .cnt] s t ∧ (portGet t.dev p).txSeq = x.txSeq ∧
          (portGet t.dev p).replayReq = none ∧ (portGet t.dev p).retry = x.retry.map (fun e => if e.useq = u
            then { e with reps := e.reps + 1, since := 0 } else { e with since := e.since + 1 }) ∧
          cntGet t.dev (prtBase p + 0x128) = bumped (cntGet s.dev (prtBase p + 0x128)))) ∧
      (x.replayReq = none → x.retry.length = 25 → Completes (.unitTransmit p) s (fun t => Only [.ports, .cnt] s t ∧
        (portGet t.dev p).txSeq = x.txSeq ∧ (portGet t.dev p).retry.length = 25 ∧
        cntGet t.dev (prtBase p + 0x128) = bumped (cntGet s.dev (prtBase p + 0x128)))) ∧
      (x.replayReq = none → x.retry.length < 25 →
        let links := linksNow s.dev p x
        let room := q.take (32 - links.length)
        let cells := room.map (fun e => if e.1 = ownInput then e.2 else { e.2 with hops := e.2.hops - 1 })
        let slots := links ++ cells.map USlot.cell
        (∀ e ∈ room, e.1 = ownInput → e.2.op ≠ 0x3F) →
        Completes (.unitTransmit p) s (fun t => Only [.ports, .rtr, .cnt] s t ∧ (portGet t.dev p).txSeq = x.txSeq + 1 ∧
          (portGet t.dev p).links = [] ∧ (portGet t.dev p).retry = x.retry.map (fun e => { e with since := e.since + 1 }) ++
            [⟨x.txSeq, slots, 0, 0⟩] ∧ (portGet t.dev p).sent = some (formUnit x.txSeq x.ack x.nak slots) ∧
          spGet [] t.dev.rtr.outq p = q.drop room.length ∧
          cntGet t.dev (prtBase p + 0x100) = bumped (cntGet s.dev (prtBase p + 0x100)))) ∧
      (∀ (i : Fin 6) (c : Cell), p.val = 6 + i.val → q = [(ownInput, c)] → c.op = 0x3F → x.replayReq = none → x.retry = [] →
        x.links = [] → identDue s.dev x = false → x.owed = 0 → let req : W32 := BitVec.ofNat 32 (payNat c 8 4)
        Completes (.unitTransmit p) s (fun t => Only [.ports, .rtr, .tim, .cnt] s t ∧
          (portGet t.dev p).retry = [⟨x.txSeq, [.cell (timeReqCell s.dev req)], 0, 0⟩] ∧
          (tpGet t.dev i).reqs = ((req, s.dev.tim.now) :: (tpGet s.dev i).reqs).take 4))) ∧
    (∀ b : BitVec 512, unitState x.st = true →
      (identOf b = none → Completes (.ident p b) s (fun t => Only [.cnt] s t ∧
        CountersGrow [prtBase p + 0x148] s.dev t.dev)) ∧
      (∀ i, identOf b = some i → identValid i = false → exec (.ident p b) s = .next s) ∧
      (∀ i, identOf b = some i → identValid i = true → x.st = .active → Completes (.ident p b) s (fun t => Only [.ports] s t ∧
        portGet t.dev p = { x with ident := some i })) ∧
      (∀ i, identOf b = some i → identValid i = true → x.st = .identify → isAdmitted s.dev = false →
        (identMisplaced p i = true → Completes (.ident p b) s (fun t => Only portParts s t ∧ portIn .held 4 p t.dev)) ∧
        (identMisplaced p i = false → identModeBad s.dev p i = true → Completes (.ident p b) s (fun t =>
          Only portParts s t ∧ portIn .held 6 p t.dev)) ∧
        (identMisplaced p i = false → identModeBad s.dev p i = false → 2 ≤ laneCount (usable s.dev p &&& i.lanes) →
          Completes (.ident p b) s (fun t => Only portParts s t ∧ portIn .admitWait x.cause p t.dev ∧
            (portGet t.dev p).ident = some i ∧ (portGet t.dev p).lanes = decideLanes s.dev p i ∧
            (portGet t.dev p).width = laneCount (decideLanes s.dev p i))))) ∧
    (∀ n : BitVec 16,
      (1 ≤ n.toNat → n.toNat ≤ 256 → Completes (.credit p n) s (fun t => Only [.ports] s t ∧
        portGet t.dev p = { x with credit := x.credit + n.toNat })) ∧
      (n.toNat = 0 ∨ 256 < n.toNat → Completes (.credit p n) s (fun t => Only [.cnt] s t ∧
        CountersGrow [prtBase p + 0x148] s.dev t.dev))) ∧
    (∀ c : Byte,
      (x.st = .active → 2 ≤ laneCount (usable s.dev p) → Completes (.retrainReq p c) s (fun t => Only portParts s t ∧
        portIn .drain 0xC p t.dev ∧ rerouted t ∧
        cntGet t.dev (prtBase p + 0x138) = bumped (cntGet s.dev (prtBase p + 0x138)))) ∧
      (x.st ≠ .active → exec (.retrainReq p c) s = .next s)) ∧
    (∀ c : Cell, x.st = .active →
      ((∃ i, x.ident = some i ∧ i.node = c.src) → 2 ≤ laneCount (usable s.dev p) → Completes (.depart p c) s (fun t =>
        Only portParts s t ∧ portIn .detect 0xD p t.dev ∧ p.val ∈ t.dev.rtr.removed ∧
        routeEntry t.dev c.src.toNat = routeEntry s.dev c.src.toNat ||| (1 : W64) <<< 62 ∧
        cntGet t.dev (rtrBase + 0x30) = bumped (cntGet s.dev (rtrBase + 0x30)))) ∧
      ((∀ i, x.ident = some i → i.node ≠ c.src) → Completes (.depart p c) s (fun t => Only [.cnt] s t ∧
        CountersGrow [rtrBase + 0x38, rtrBase + 0x1000 + 0x100 * p] s.dev t.dev)))

/-- R239, R246, R247 and R249. -/
def Obligations.CellRouteDelivers : Prop :=
  ∀ (s : State) (p : Nat) (c : Cell), p < 16 → portsRun s.dev 16 = true →
    (∀ m, spGet [] s.dev.rtr.staging m = if m = p then [c] else []) → s.dev.nic.txq = [] → s.dev.ports.detour = [] →
    s.dev.rtr.back = [] →
    fateOf s.dev p c = .route → c.bounce = false →
    let left (t : State) : Prop := Only [.rtr, .ports, .cnt] s t ∧ t.dev.rtr.cycle = s.dev.rtr.cycle + 1 ∧
      ∀ m, spGet [] t.dev.rtr.staging m = []
    let o := fieldN (routeEntry s.dev c.dst.toNat) 61 57
    (c.dst = s.dev.rtr.node → opKnown c.op.toNat = true → Completes .cellRoute s (fun t => left t ∧
      t.dev.rtr.toNic = s.dev.rtr.toNic ++ [c] ∧ t.dev.rtr.outq = s.dev.rtr.outq)) ∧
    (c.dst ≠ s.dev.rtr.node → c.cls ≠ 0 → o < 16 → 0 < portSlots s.dev o → ((portGet s.dev o).k3 = true → c.k3 = true) →
      (portGet s.dev o).replayReq = none →
      Completes .cellRoute s (fun t => left t ∧ t.dev.rtr.toNic = s.dev.rtr.toNic ∧
        ∀ m, spGet [] t.dev.rtr.outq m = if m = o then spGet [] s.dev.rtr.outq o ++ [(p, c)]
          else spGet [] s.dev.rtr.outq m))

/-- R282 and R284. -/
def Obligations.PortTraining : Prop :=
  ∀ (p : Fin 16) (s : State), portsRun s.dev p = true →
    let x := portGet s.dev p
    let u := usable s.dev p
    let moved (st : PState) (cause : Nat) (t : State) : Prop := Only portParts s t ∧ portIn st cause p t.dev
    (∀ (l : Fin 4) (f : TrainFrame),
      let y := laneGet x l
      let tap (n : Nat) (r : BitVec 2) (v : Int) : Int × BitVec 2 :=
        let w := if r = 1 then v + 1 else v - 1
        if f.presetValid then (0, 1) else if r = 0 ∨ r = 3 then (v, 0)
        else if Config.tapLimit n < w.natAbs ∧ v.natAbs < w.natAbs then (v, 2) else (w, 1)
      let a := tap 0 f.pre2 y.pre2
      let b := tap 1 f.pre1 y.pre1
      let c := tap 2 f.post1 y.post1
      (f.marker = 0x7E61B3C8 → (x.st = .equalize ∨ x.st = .retrain) → ∃ t, exec (.trainingFrame p l f) s = .next t ∧
        Only [.ports] s t ∧ laneGet (portGet t.dev p) l = { y with
          rxReady := f.rxReady, pre2 := a.1, pre1 := b.1, post1 := c.1, pre2St := a.2, pre1St := b.2, post1St := c.2
          preset := if f.presetValid then f.preset.toNat else y.preset } ∧
        ∀ m : Nat, m ≠ l.val → laneGet (portGet t.dev p) m = laneGet x m) ∧
      (f.marker ≠ 0x7E61B3C8 ∨ (x.st ≠ .equalize ∧ x.st ≠ .retrain) → exec (.trainingFrame p l f) s = .next s)) ∧
    (∀ lanes : BitVec 4,
      (x.st = .detect → 2 ≤ laneCount (lanes &&& u) → ∃ t, exec (.portSignalDetect p lanes) s = .next t ∧
        moved .equalize x.cause t ∧ ∀ l, l < 4 → let y := laneGet (portGet t.dev p) l
          y.rxReady = false ∧ y.ready = false ∧ y.locked = false ∧ y.pre1 = 0) ∧
      (x.st ≠ .detect ∨ laneCount (lanes &&& u) < 2 → exec (.portSignalDetect p lanes) s = .next s)) ∧
    (∀ l : Fin 4,
      let rest := (List.range 4).all (fun m => m == l.val || !(u.getLsbD m) || (laneGet x m).ready)
      let lockRest := (List.range 4).all (fun m => m == l.val || !(u.getLsbD m) || (laneGet x m).locked)
      (x.st = .equalize → (laneGet x l).rxReady = true → u.getLsbD l = true →
        (rest = false → Completes (.laneReady p l) s (fun t => Only [.ports] s t ∧
          laneGet (portGet t.dev p) l = { laneGet x l with ready := true } ∧ (portGet t.dev p).st = .equalize)) ∧
        (rest = true → Completes (.laneReady p l) s (fun t => moved .align x.cause t ∧
          (portGet t.dev p).lanes = u ∧ (portGet t.dev p).goodRun = 0))) ∧
      (x.st ≠ .equalize ∨ (laneGet x l).rxReady = false ∨ u.getLsbD l = false → exec (.laneReady p l) s = .next s) ∧
      (x.st = .retrain → u.getLsbD l = true →
        (lockRest = false → Completes (.laneLock p l) s (fun t => Only [.ports] s t ∧
          laneGet (portGet t.dev p) l = { laneGet x l with locked := true } ∧ (portGet t.dev p).st = .retrain)) ∧
        (lockRest = true → Completes (.laneLock p l) s (fun t => moved .align x.cause t ∧ (portGet t.dev p).lanes = u))) ∧
      (x.st ≠ .retrain → x.st ≠ .align → x.st ≠ .equalize → exec (.laneLock p l) s = .next s)) ∧
    (let r := lanesWith x u Lane.ready
     x.st = .equalize → 2 ≤ laneCount u → ∃ t, exec (.equalizeTimeout p) s = .next t ∧
      (2 ≤ laneCount r → moved .align x.cause t ∧ (portGet t.dev p).lanes = r) ∧
      (laneCount r < 2 → moved .detect 2 t ∧ (portGet t.dev p).lanes = 0)) ∧
    (x.st = .align → 2 ≤ laneCount u → ∃ t, exec (.alignTimeout p) s = .next t ∧ moved .detect 3 t ∧
      (portGet t.dev p).lanes = 0) ∧
    (x.st = .identify → 2 ≤ laneCount u → ∃ t, exec (.identifyTimeout p) s = .next t ∧ moved .detect x.cause t ∧
      (portGet t.dev p).lanes = 0) ∧
    (x.st = .retrain → 2 ≤ laneCount u → ∃ t, exec (.retrainTimeout p) s = .next t ∧ moved .detect x.cause t ∧
      (portGet t.dev p).lanes = 0) ∧
    (x.st ≠ .equalize → exec (.equalizeTimeout p) s = .next s) ∧ (x.st ≠ .align → exec (.alignTimeout p) s = .next s) ∧
    (x.st ≠ .identify → exec (.identifyTimeout p) s = .next s) ∧ (x.st ≠ .retrain → exec (.retrainTimeout p) s = .next s)

/-- R280, R282, R289, R291, R292, R299, R303 and R305. -/
def Obligations.PortExits : Prop :=
  ∀ (p : Fin 16) (s : State), portsRun s.dev p = true →
    let x := portGet s.dev p
    let q := spGet [] s.dev.rtr.outq p
    let left (st : PState) (cause : Nat) (t : State) : Prop := Only portParts s t ∧ portIn st cause p t.dev ∧
      spGet [] t.dev.rtr.outq p = [] ∧ t.dev.rtr.back = q.filter (fun e => e.1 != ownInput) ++ s.dev.rtr.back ∧
      cntGet t.dev (prtBase p + 0x138) = bumped (cntGet s.dev (prtBase p + 0x138)) ∧
      (st = .retrain → (portGet t.dev p).retry = [] ∧
        cntGet t.dev (prtBase p + 0x140) = grown (cntGet s.dev (prtBase p + 0x140)) (unacked x))
    let exits : Prop := x.st = .active ∧ 2 ≤ laneCount (usable s.dev p) ∧ lanesFresh x = true
    (∀ lanes : BitVec 4, exits → lanes &&& x.lanes ≠ 0 → ∃ t, exec (.laneLoss p lanes) s = .next t ∧ left .retrain 7 t) ∧
    (∀ l : Fin 4, exits → 4 ≤ (laneGet x l).fecRun → ∃ t, exec (.fecLimit p l) s = .next t ∧ left .drain 8 t) ∧
    (exits → 4 ≤ x.retryRun → ∃ t, exec (.retryLimit p) s = .next t ∧ left .drain 9 t) ∧
    (exits → 25 ≤ x.retry.length → ∃ t, exec (.ackTimeout p) s = .next t ∧ left .retrain 0xB t) ∧
    (exits → routerPartner x = true → ∃ t, exec (.freqMismatch p) s = .next t ∧ left .retrain 0x10 t) ∧
    (routerPartner x = false → exec (.freqMismatch p) s = .next s) ∧
    (x.st ≠ .active → (∀ l, exec (.fecLimit p l) s = .next s) ∧ exec (.retryLimit p) s = .next s ∧
      exec (.ackTimeout p) s = .next s ∧ exec (.freqMismatch p) s = .next s) ∧
    (x.st = .drain → Completes (.drainEnd p) s (fun t => Only portParts s t ∧
      portIn (if portEnabled s.dev p then .retrain else .disabled) x.cause p t.dev ∧ (portGet t.dev p).retry = [] ∧
      cntGet t.dev (prtBase p + 0x140) = grown (cntGet s.dev (prtBase p + 0x140)) (unacked x))) ∧
    (x.st ≠ .drain → exec (.drainEnd p) s = .next s) ∧
    (6 ≤ p.val → p.val ≤ 11 →
      let pair := pairOf p
      (x.st = .active → x.k3 = false → x.owner = false → (portGet s.dev pair).owner = false →
        let lost := if expEligible s.dev p then
          x.mirror.filter (fun m => decide (m.1 ≠ x.mirrorAck ∧ (m.1 - x.mirrorAck).toNat < 2 ^ 15)) else []
        Completes (.expClaim p) s (fun t => Only [.ports, .kmd, .hif, .cnt, .rtr] s t ∧ (portGet t.dev p).owner = true ∧
          (portGet t.dev pair).owner = false ∧ (portGet t.dev p).mirror = [] ∧
          (∀ m, spGet [] t.dev.rtr.outq m = if m = p.val then lost.map (fun e => (ownInput, { e.2 with replay := true })) ++ q
            else spGet [] s.dev.rtr.outq m) ∧
          cntGet t.dev (prtBase p + 0x158) = bumped (cntGet s.dev (prtBase p + 0x158)))) ∧
      ((portGet s.dev pair).owner = true → exec (.expClaim p) s = .next s) ∧
      (expPrimary s.dev p = p.val → expEligible s.dev p = true → x.owner = false → (portGet s.dev pair).owner = true →
        (spGet [] s.dev.rtr.outq pair).all (fun c => c.2.cls != 0) = true →
        Completes (.expHoldoffExpiry p) s (fun t => Only [.ports, .kmd, .hif, .cnt, .rtr] s t ∧ (portGet t.dev p).owner = true ∧
          (portGet t.dev pair).owner = false ∧
          cntGet t.dev (prtBase p + 0x160) = bumped (cntGet s.dev (prtBase p + 0x160)))) ∧
      (expEligible s.dev p = false → exec (.expHoldoffExpiry p) s = .next s))

/-! ### Supply, limiters, cooling (R363 to R402) -/

/-- R363 to R366. -/
def Obligations.SupplyAndRails : Prop :=
  ∀ (s : State), s.dev.jtag.ir ≠ 0 →
    let u := s.dev.pwr.supply
    let sup (t : State) : Supply := t.dev.pwr.supply
    let may (x : Supply) : Bool := s.dev.rst.aon && !x.enRearm && !x.supplyHold
    let main (x : Supply) : Bool := may x && x.enMem && x.mainRails == .off && x.memRails == .on && mainAllowed s.dev &&
      !(latchedOff s.dev)
    (∀ mv us : Nat,
      let ok := if 40000 ≤ mv ∧ mv ≤ 59500 then us else 0
      let x : Supply := { u with
        inputMv := mv, inputHist := (mv :: u.inputHist).take 1000, okUs := ok, supplyHold := u.supplyHold && decide (ok < 100000) }
      Completes (.inputSample mv us) s (fun t => Only [.pwr] s t ∧ (sup t).inputMv = mv ∧ (sup t).inputHist = x.inputHist ∧
        (sup t).okUs = ok ∧ (sup t).supplyHold = x.supplyHold ∧
        (sup t).memRails = (if (may x && u.enMem && u.memRails == .off && decide (1000 ≤ ok)) then .rising else u.memRails))) ∧
    (let out := u.inputMv < 40000 ∨ 59500 < u.inputMv
     let far := u.inputMv < 38000 ∨ 61000 < u.inputMv
     (out → ¬far → railsOn s.dev = true → u.marginal = false → Completes (.inputMarginal true) s (fun t =>
        Only [.pwr, .kmd, .hif, .cnt] s t ∧ sup t = { u with marginal := true } ∧
        cntGet t.dev (pwrBase + 0x370) = bumped (cntGet s.dev (pwrBase + 0x370)))) ∧
     (¬out → u.marginal = true → Completes (.inputMarginal false) s (fun t =>
        Only [.pwr, .kmd, .hif, .cnt] s t ∧ sup t = { u with marginal := false })) ∧
     (¬out → exec (.inputMarginal true) s = .next s) ∧ (out → exec (.inputMarginal false) s = .next s) ∧
     (far → railsOn s.dev = true → Completes .supplyFault s (fun t => Only [.pwr, .rst, .health, .kmd, .cnt] s t ∧
        sup t = { u with memRails := .off, mainRails := .off, enRearm := true, supplyHold := true, enMainEarly := false
                         pwrOffReq := true } ∧
        t.dev.health.state = .off ∧ t.dev.rst.step = 1 ∧ t.dev.rst.held = true ∧ t.dev.rst.cause.getLsbD 10 = true)) ∧
     (¬far ∨ railsOn s.dev = false → exec .supplyFault s = .next s)) ∧
    (∀ us : Nat, us < 10 → ∀ level, exec (.enMem level us) s = .next s ∧ exec (.enMain level us) s = .next s) ∧
    (∀ us : Nat, 10 ≤ us →
      Completes (.enMem true us) s (fun t => Only [.pwr] s t ∧ (sup t).enMem = true ∧
        (may u = true → u.memRails = .off → 1000 ≤ u.okUs → (sup t).memRails = .rising)) ∧
      Completes (.enMain true us) s (fun t => Only [.pwr] s t ∧ (sup t).enMain = true ∧
        (main u = true → memSettled s.dev = true → (sup t).mainRails = .rising)) ∧
      (u.mainRails ≠ .on → Completes (.enMem false us) s (fun t => Only [.pwr, .rst, .pins] s t ∧ (sup t).enMem = false ∧
        (sup t).memRails = .off ∧ (sup t).mainRails = .off ∧ t.dev.rst.step = 1 ∧ t.dev.rst.held = true)) ∧
      (u.mainRails = .rising → u.enMem = true → Completes (.enMain false us) s (fun t => Only [.pwr, .rst, .pins] s t ∧
        (sup t).enMain = false ∧ (sup t).mainRails = .off ∧ (sup t).memRails = u.memRails)) ∧
      (∀ i ∈ [Instr.enMem false us, .enMain false us], u.mainRails = .on → moduleRuns s.dev = true →
        (s.dev.rst.withdraw = none → Completes i s (fun t => t.mem = s.mem ∧ t.dev.rst.withdraw = some .railsOff ∧
          t.dev.nic.stopped = true ∧ (sup t).mainRails = .on)) ∧
        (∀ w, s.dev.rst.withdraw = some w → Completes i s (fun t => Only [.pwr, .rst] s t ∧
          t.dev.rst = { s.dev.rst with withdraw := some (widerStop w .railsOff) } ∧ (sup t).mainRails = .on))) ∧
      (∀ i ∈ [Instr.enMem false us, .enMain false us], u.mainRails = .on → moduleRuns s.dev = false →
        Completes i s (fun t => Only [.pwr, .rst, .pins] s t ∧ (sup t).mainRails = .off ∧ t.dev.rst.step = 1 ∧
          t.dev.rst.held = true ∧ t.dev.pins.latched = false))) ∧
    (u.enMainEarly = true → u.memRails = .on → Completes .enMainActedOn s (fun t => Only [.pwr, .tim] s t ∧
      (sup t).enMainEarly = false ∧ (main u = true → u.enMain = true → (sup t).mainRails = .rising))) ∧
    (u.enMainEarly = false → exec .enMainActedOn s = .next s) ∧
    (u.memRails = .rising →
      Completes (.railRegulated false) s (fun t => Only [.pwr] s t ∧
        sup t = { u with memRails := .on, memSince := s.dev.tim.now }) ∧
      Completes (.railTimeout 1) s (fun t => Only [.pwr] s t ∧ sup t = { u with memRails := .failed, stopRail := 1, enRearm := true })) ∧
    (u.mainRails = .rising →
      Completes (.railRegulated true) s (fun t => Only [.pwr] s t ∧
        sup t = { u with mainRails := .on, pwrOffReq := latchedOff s.dev }) ∧
      Completes (.railTimeout 2) s (fun t => Only [.pwr] s t ∧
        sup t = { u with mainRails := .failed, memRails := .off, stopRail := 2, enRearm := true })) ∧
    (u.memRails ≠ .rising → exec (.railRegulated false) s = .next s ∧ exec (.railTimeout 1) s = .next s) ∧
    (u.mainRails ≠ .rising → exec (.railRegulated true) s = .next s ∧ exec (.railTimeout 2) s = .next s)

/-- R44, R51, R367, R369 to R373, R375, R376 to R378, R383, R386 to R388, R390 and R402. -/
def Obligations.LimitersAndClocks : Prop :=
  ∀ (s : State),
    let l := s.dev.pwr.lim
    let lim (t : State) : Limits := t.dev.pwr.lim
    let gal (t : State) (g : Nat) : Gal := galGet t.dev g
    (hubUp s.dev = true →
      (∀ i : LimitIn, l.eff.ffMhz = 0 →
        (clearBelow l i = true → Completes (.limiterInterval i) s (fun t => Only [.pwr, .kmd, .hif, .cnt] s t ∧
          (lim t).ceiling = (if l.ceiling < 16 then l.ceiling + 1 else if l.duty < 16 then l.ceiling
            else if l.ceiling < (if l.eff.boost then 72 else 60) then l.ceiling + 1 else l.ceiling) ∧
          (lim t).duty = (if 16 ≤ l.ceiling ∧ l.duty < 16 then l.duty + 1 else l.duty) ∧
          (lim t).ballast = (if ((l.heldBrake = true ∨ l.heldPpl = true) ∧ atTop (ladderUp l) = false) ∨ l.dutyW < 15 ∨
            l.dutyE < 15 then 0 else ballastSteps l (2 ^ 20 - s.dev.tim.count.toNat % 2 ^ 20) i))) ∧
        ((pplAllowance l < i.windowW ∨ 30 * l.limit < draw100 l i ∨ (l.tight = true ∧ 6 * l.limit < 5 * i.drawW)) →
          i.stepsDown = 1 →
          Completes (.limiterInterval i) s (fun t => Only [.pwr, .kmd, .hif, .cnt] s t ∧ (lim t).pplBound = true ∧
            (lim t).boundNow = true ∧ (lim t).ballast = 0 ∧
            (lim t).ceiling = (if 0 < l.ballast then l.ceiling else if 60 < l.ceiling then 60
              else if 16 < l.ceiling then l.ceiling - 1 else if 0 < l.duty then l.ceiling
              else if 4 < l.ceiling then l.ceiling - 1 else l.ceiling) ∧
            (lim t).duty = (if l.ballast = 0 ∧ l.ceiling ≤ 16 then l.duty - 1 else l.duty)))) ∧
      (∀ i : LimitIn, Completes (.limiterInterval i) s (fun t =>
        let w := if l.eff.railW < i.railW then min l.dutyW i.dutyW else min 16 (l.dutyW + 1)
        let e := if l.eff.railE < i.railE then min l.dutyE i.dutyE else min 16 (l.dutyE + 1)
        Only [.pwr, .kmd, .hif, .cnt] s t ∧ (lim t).dutyW = w ∧ (lim t).dutyE = e ∧
        (lim t).railBoundW = decide (w < 16) ∧ (lim t).railBoundE = decide (e < 16) ∧
        (lim t).recent = (i.lastW :: l.recent).take 23)) ∧
      (∀ h : Fin 2, Completes (.railVoltageReached h) s (fun t => Only [.pwr] s t ∧
        ∀ g, gal t g = if 6 * h.val ≤ g ∧ g < 6 * h.val + 6 then
          { galGet s.dev g with clk := clockWant s.dev (galGet s.dev g) } else galGet s.dev g)) ∧
      (∀ (g : Fin 12) (mv : Nat),
        let level := if 70 ≤ mv then 3 else if 45 ≤ mv then 2 else if 25 ≤ mv then 1 else 0
        Completes (.droop g mv) s (fun t => Only [.pwr] s t ∧ ∀ m, gal t m = if m = g.val then
          { galGet s.dev g with stretch := max (galGet s.dev g).stretch level, deepest := max (galGet s.dev g).deepest level }
          else galGet s.dev m)) ∧
      (∀ (g : Fin 12) (v : Int),
        let x := galGet s.dev g
        galHot x = some v → ffOn s.dev = false →
        ((l.eff.tjC : Int) * 10 ≤ v → 16 < min x.own x.clk → Completes (.selfThrottleStep g) s (fun t =>
          Only [.pwr, .kmd, .hif, .cnt] s t ∧ (gal t g).own = min x.own x.clk - 1 ∧ (gal t g).selfThrottle = true ∧
          cntGet t.dev (galBase g + 0x220) = bumped (cntGet s.dev (galBase g + 0x220)))) ∧
        ((l.eff.tjC : Int) * 10 - 20 < v → v < (l.eff.tjC : Int) * 10 → exec (.selfThrottleStep g) s = .next s)) ∧
      (∀ m : Meter, s.dev.tim.sched = [] → s.dev.kmd.mgmtLost = false → l.lostCap = false →
        Completes (.powerWindowBoundary m) s (fun t =>
          let e := settingsNow s.dev
          let lv := if s.dev.pwr.cool.sensingDegraded then e.pplW / 2 else e.pplW
          let hi := if e.rampW = 0 then lv else min lv (m.meanW + e.rampW)
          Only [.pwr, .tim, .ports, .kmd, .hif, .cnt] s t ∧ (lim t).eff = e ∧ (lim t).drawW = m.meanW ∧ (lim t).limit = lv ∧
          (lim t).hi = hi ∧ (lim t).lo = min (if e.rampW = 0 then e.floorW else max e.floorW (m.meanW - e.rampW)) hi ∧
          (lim t).boundPrev = l.boundNow ∧ (lim t).boundNow = false ∧ t.dev.tim.count.toNat % 2 ^ 20 = 0 ∧
          (∀ n, n < 32 → spGet 0 t.dev.pwr.ctxEnergy n =
            grown (spGet 0 s.dev.pwr.ctxEnergy n) (if ctxValid s.dev n then m.slots.getD n 0 else 0)) ∧
          t.dev.pwr.ballastE = grown s.dev.pwr.ballastE m.ballast ∧
          t.dev.pwr.total = grown s.dev.pwr.total (m.overhead + m.slots.sum)))) ∧
    (s.dev.rst.clocksStopped = false → ∀ (g : Fin 12) (cycles : Nat),
      let x := galGet s.dev g
      (x.stretch ≠ 0 → x.deepest ≤ 3 → Completes (.droopRelease g cycles) s (fun t => Only [.pwr, .cnt] s t ∧
        (∀ m, gal t m = if m = g.val then { x with stretch := 0, deepest := 0 } else galGet s.dev m) ∧
        cntGet t.dev (galBase g + 0x1F8 + 8 * x.deepest) = bumped (cntGet s.dev (galBase g + 0x1F8 + 8 * x.deepest)) ∧
        cntGet t.dev (galBase g + 0x218) = grown (cntGet s.dev (galBase g + 0x218)) cycles)) ∧
      (x.stretch = 0 → exec (.droopRelease g cycles) s = .next s)) ∧
    (s.dev.jtag.ir ≠ 0 → ∀ (level : Bool) (ns : Nat),
      (1000 ≤ ns → l.brake = level → Completes (.pwrBrakeN level ns) s (fun t => Only [.pwr, .kmd, .hif, .cnt] s t ∧
        (lim t).brake = !level ∧ t.dev.pwr.supply = { s.dev.pwr.supply with brakePin := !level } ∧
        cntGet t.dev (pwrBase + 0x330) =
          (if level then cntGet s.dev (pwrBase + 0x330) else bumped (cntGet s.dev (pwrBase + 0x330))))) ∧
      (ns < 1000 ∨ l.brake = !level → exec (.pwrBrakeN level ns) s = .next s)) ∧
    (hifUp s.dev = true → ∀ v : W32,
      let w := (v.extractLsb' 0 12).toNat
      let f := (v.extractLsb' 0 11).toNat
      let range (t : State) : Prop := Only [.hif] s t ∧ t.dev.hif.err.getLsbD 0 = true
      let refused (t : State) : Prop := Only [.hif] s t ∧ t.dev.hif.err.getLsbD 1 = true
      let due (k : SchedKind) (t : State) : Prop := Only [.tim] s t ∧
        t.dev.tim = { s.dev.tim with sched := s.dev.tim.sched ++ [⟨0, k⟩] }
      (ffConflict (schedAdd ⟨0, .cap w⟩ s.dev) = true → Completes (.pwrCap v) s refused) ∧
      (ffConflict (schedAdd ⟨0, .cap w⟩ s.dev) = false →
        (450 ≤ w → w ≤ 3000 → Completes (.pwrCap v) s (due (.cap w))) ∧
        (w < 450 ∨ 3000 < w → Completes (.pwrCap v) s range)) ∧
      ((f = 0 ∨ (800 ≤ f ∧ f ≤ 1400 ∧ f % 25 = 0) → ffConflict (schedAdd ⟨0, .ff f⟩ s.dev) = false →
          Completes (.pwrFf v) s (due (.ff f))) ∧
        (f = 0 ∨ (800 ≤ f ∧ f ≤ 1400 ∧ f % 25 = 0) → ffConflict (schedAdd ⟨0, .ff f⟩ s.dev) = true →
          Completes (.pwrFf v) s refused) ∧
        (¬(f = 0 ∨ (800 ≤ f ∧ f ≤ 1400 ∧ f % 25 = 0)) → Completes (.pwrFf v) s range))) ∧
    (hifUp s.dev = false → ∀ v : W32, exec (.pwrCap v) s = .next s ∧ exec (.pwrFf v) s = .next s)

/-- R389, R391, R392, R394 to R399. -/
def Obligations.CoolingChecks : Prop :=
  ∀ (s : State),
    let c := s.dev.pwr.cool
    let cool (t : State) : Cool := t.dev.pwr.cool
    let watch (t : State) : Prop := Only [.pwr, .memc, .kmd, .hif, .health, .cnt] s t
    (∀ (n : Nat) (v : Option Int), sensorPowered s.dev n = true →
      let stored (t : State) : Prop := (if n < 48 then spGet none (galGet t.dev (n / 4)).tj (n % 4)
        else spGet none (cool t).sensors (n - 48)) = v
      ((∀ x, v = some x → x < 1100 ∨ s.dev.pwr.supply.tripLatched = true) →
        Completes (.junctionSample n v) s (fun t => watch t ∧ stored t ∧
          (48 ≤ n → t.dev.memc.mezz2x = hotLayers (cool t).sensors))) ∧
      (∀ x, v = some x → 1100 ≤ x → s.dev.pwr.supply.tripLatched = false → Completes (.junctionSample n v) s (fun t =>
        stored t ∧ t.mem = s.mem ∧ t.dev.pwr.supply.tripLatched = true ∧ t.dev.pwr.supply.pwrOffReq = true ∧
        t.dev.health.state = .off ∧ t.dev.rst.cause.getLsbD 7 = true))) ∧
    (∀ (n : Nat) (v : Option Int), sensorPowered s.dev n = false → exec (.junctionSample n v) s = .next s) ∧
    (∀ a b : Option Int, s.dev.rst.aon = true → Completes (.coolantSample a b) s (fun t => watch t ∧ (cool t).inletDc = a ∧
      (cool t).outletDc = b ∧ (∀ x, (a = some x ∨ b = some x) → (x < 0 ∨ 800 < x) → 3 ∈ (cool t).failing ∧
        (3 ∉ c.failing → (cool t).sensingDegraded = true)))) ∧
    (∀ x, c.inletDc = some x →
      (450 < x → Completes (.coolantHot true) s (fun t => Only [.pwr, .kmd, .hif, .cnt] s t ∧ cool t = { c with coolantHot := true })) ∧
      (x ≤ 440 → Completes (.coolantHot false) s (fun t => Only [.pwr, .kmd, .hif, .cnt] s t ∧ cool t = { c with coolantHot := false })) ∧
      (x ≤ 450 → exec (.coolantHot true) s = .next s) ∧ (440 < x → exec (.coolantHot false) s = .next s)) ∧
    (∀ a b : Option Int, s.dev.rst.aon = false → exec (.coolantSample a b) s = .next s) ∧
    (s.dev.jtag.ir ≠ 0 → ∀ us : Nat, Completes (.flowPulseEdge us) s (fun t => Only [.pwr] s t ∧
      cool t = (if 400 ≤ us ∧ us ≤ 600 then { c with flowRun := c.flowRun + 1 }
        else { c with flowRun := 0, flowGood := false }))) ∧
    (s.dev.jtag.ir = 0 → (∀ us : Nat, exec (.flowPulseEdge us) s = .next s) ∧ exec .flowRestored s = .next s) ∧
    (s.dev.pwr.supply.mainRails = .on → c.flowStopped = false → latchedOff s.dev = false →
      ∃ t, exec .flowLost s = .next t ∧ t.mem = s.mem ∧ (cool t).flowStopped = true ∧ (cool t).flowGood = false ∧
        (cool t).flowRun = 0 ∧ t.dev.rst.cause.getLsbD 8 = true ∧
        cntGet t.dev (pwrBase + 0x360) = bumped (cntGet s.dev (pwrBase + 0x360)) ∧
        (moduleRuns s.dev = true → s.dev.rst.withdraw = none →
          t.dev.rst.withdraw = some .flowStop ∧ t.dev.nic.stopped = true) ∧
        (∀ w, moduleRuns s.dev = true → s.dev.rst.withdraw = some w → t.dev.rst.withdraw = some (widerStop w .flowStop)) ∧
        (moduleRuns s.dev = false → t.dev.health.state = .off ∧ t.dev.pwr.supply.stopCause = 1)) ∧
    (s.dev.pwr.supply.mainRails ≠ .on ∨ c.flowStopped = true ∨ latchedOff s.dev = true →
      ∃ t, exec .flowLost s = .next t ∧ Only [.pwr] s t ∧ cool t = { c with flowRun := 0, flowGood := false }) ∧
    (c.flowRun = 0 → exec .flowRestored s = .next s) ∧
    (c.flowRun ≠ 0 → s.dev.jtag.ir ≠ 0 →
      (c.flowStopped = false ∨ latchedOff s.dev = true → Completes .flowRestored s (fun t => Only [.pwr] s t ∧
        cool t = { c with flowGood := true, flowStopped := false })) ∧
      (c.flowStopped = true → latchedOff s.dev = false → Completes .flowRestored s (fun t => (cool t).flowGood = true ∧
        (cool t).flowStopped = false ∧ t.dev.lnd = [] ∧ t.dev.rst.withdraw = none ∧
        cntGet t.dev (rstBase + 0x210) = bumped (cntGet s.dev (rstBase + 0x210))))) ∧
    (∀ mv : Nat,
      let b := if 900 ≤ mv ∧ mv ≤ 1100 then 0 else if 100 ≤ mv ∧ mv < 800 then 1 else 2
      Completes (.leakSample mv) s (fun t => Only [.pwr, .kmd, .cnt] s t ∧ cool t = { c with
        leakReading := b, wetRun := if b = 1 then c.wetRun + 1 else 0, faultRun := if b = 2 then c.faultRun + 1 else 0
        dryRun := if b = 0 then c.dryRun + 1 else 0 })) ∧
    (10 ≤ c.wetRun → c.leakLatched = false →
      ∃ t, exec .leakWet s = .next t ∧ t.mem = s.mem ∧ (cool t).leakLatched = true ∧
        (moduleRuns s.dev = true → s.dev.rst.withdraw = none →
          t.dev.rst.withdraw = some .leakStop ∧ t.dev.nic.stopped = true) ∧
        (∀ w, moduleRuns s.dev = true → s.dev.rst.withdraw = some w → t.dev.rst.withdraw = some .leakStop) ∧
        (moduleRuns s.dev = false → t.dev.health.state = .off ∧ t.dev.pwr.supply.pwrOffReq = true ∧
          t.dev.pwr.supply.stopCause = 2)) ∧
    (c.wetRun < 10 ∨ c.leakLatched = true → exec .leakWet s = .next s) ∧
    (100 ≤ c.faultRun → c.leakFault = false → Completes .leakLoopFault s (fun t => watch t ∧ (cool t).leakFault = true ∧
      (cool t).sensingDegraded = true ∧ cntGet t.dev (pwrBase + 0x368) = bumped (cntGet s.dev (pwrBase + 0x368)))) ∧
    (c.faultRun < 100 ∨ c.leakFault = true → exec .leakLoopFault s = .next s) ∧
    (100 ≤ c.dryRun → Completes .leakDry s (fun t => Only [.pwr, .kmd, .hif, .cnt] s t ∧ cool t = { c with leakFault := false })) ∧
    (c.dryRun < 100 → exec .leakDry s = .next s) ∧
    (∀ (w : Nat) (a b : Int),
      let p : Int := (w : Int) * 600000
      let bad := p < 4 * ((((flowHeat s.dev : Int) * (b - a) - p).natAbs : Nat) : Int)
      let fresh := ∃ x, c.flowWritten = some x ∧ s.dev.tim.now ≤ x + 10 * 10 ^ 9
      (500 ≤ w → fresh → Completes (.heatBalanceCheck w a b) s (fun t => watch t ∧ (cool t).balanceSuspended = false ∧
        (cool t).balanceRun = (if bad then c.balanceRun + 1 else 0) ∧
        (bad → 9 ≤ c.balanceRun → 4 ∈ (cool t).failing ∧ (4 ∉ c.failing → (cool t).sensingDegraded = true)))) ∧
      (w < 500 ∨ ¬fresh → Completes (.heatBalanceCheck w a b) s (fun t => watch t ∧ cool t = { c with balanceSuspended := true }))) ∧
    (∀ (g : Fin 12) (rise : Int),
      (rise < 20 → Completes (.junctionStaticCheck g rise) s (fun t => watch t ∧ (galGet t.dev g).sensorFault = true ∧
        2 ∈ (cool t).failing ∧ (2 ∉ c.failing → (cool t).sensingDegraded = true))) ∧
      (20 ≤ rise → Completes (.junctionStaticCheck g rise) s (fun t => watch t ∧ 2 ∉ (cool t).failing ∧
        galGet t.dev g = galGet s.dev g)))

/-! ### Power-on, reset, start, scrub (R408 to R470) -/

/-- R366, R408, R410, R413, R419, R420, R454, R461, R462, R533, R570, R572 and R573. That the boot ROM goes on at once
after a release is the model's reading. -/
def Obligations.PowerOnAndPins : Prop :=
  ∀ (s : State), s.dev.jtag.ir ≠ 0 →
    let r := s.dev.rst
    let u := s.dev.pwr.supply
    let starts (t : State) : Prop := StartBegun s t
    let waits (t : State) : Prop := t.dev.rst.held = false ∧ t.dev.rst.step = 2 ∧ t.dev.rst.hold = 4 ∧
      t.dev.rst.refLocked = false ∧ t.dev.rst.incarnation = r.incarnation
    let resets (t : State) : Prop := t.dev.lnd = [] ∧ cntGet t.dev (rstBase + 0x210) = bumped (cntGet s.dev (rstBase + 0x210))
    let few := s.dev.health.state = .maint ∨ s.dev.health.state = .recovery ∨
      (within24h s.dev.tim.now s.dev.health.sysResets).length < 3
    let up := r.sysPinLow = false ∧ r.refLost = false
    Completes .powerOnReset s (fun t => t.mem = Memory.reset ∧ t.pending = s.pending ∧ t.dev.lnd = [] ∧ t.dev.cnt = [] ∧
      t.dev.health.state = .off ∧ t.dev.rst.aon = true ∧ t.dev.rst.held = true ∧ t.dev.rst.step = 0 ∧
      t.dev.rst.cause = (if s.dev.health.removalMark then 0x201 else 1) ∧ t.dev.rst.incarnation = r.incarnation ∧
      t.dev.fuses = s.dev.fuses ∧ t.dev.fw.flash = s.dev.fw.flash ∧ t.dev.fw.active = s.dev.fw.active ∧
      t.dev.kmd.keys = s.dev.kmd.keys ∧ t.dev.health.defects = s.dev.health.defects ∧
      t.dev.health.oosMark = s.dev.health.oosMark) ∧
    Completes .aonSupplyLoss s (fun t => Only [.rst, .pwr, .health, .kmd, .jtag] s t ∧ t.dev.rst.aon = false ∧
      t.dev.jtag = Jtag.reset ∧ t.dev.pwr.cool = Cool.reset ∧
      t.dev.rst.held = true ∧ t.dev.rst.step = 0 ∧ t.dev.rst.cause = 0 ∧ t.dev.health.state = .off ∧
      t.dev.pwr.supply = Supply.reset) ∧
    (∀ locked : Bool,
      let may := r.aon = true ∧ r.held = true ∧ u.mainRails = .on ∧ latchedOff s.dev = false ∧ s.dev.health.state = .off
      let sampled (t : State) : Prop := t.dev.fuses.boardSlot = s.dev.pins.boardSlot.toNat ∧
        t.dev.fuses.trayId = s.dev.pins.trayId.toNat ∧ t.dev.pins.latched = true ∧ t.dev.lnd = [] ∧
        t.dev.rtr.node = BitVec.ofNat 12 (4 * s.dev.pins.trayId.toNat + s.dev.pins.boardSlot.toNat) ∧
        t.dev.kmd.mac = BitVec.ofNat 48 (0x024B34000001 + 256 * s.dev.pins.trayId.toNat + s.dev.pins.boardSlot.toNat)
      (¬may → exec (.porRelease locked) s = .next s) ∧
      (may → Completes (.porRelease locked) s (fun t => sampled t ∧
        (if r.sysPinLow then t.dev.rst.held = true ∧ t.dev.rst.step = 1 ∧ t.dev.health.state = .off
          else if locked then starts t else waits t ∧ t.dev.health.state = .off))) ∧
      (r.hold = 4 ∧ r.step = 2 ∧ locked = true → Completes (.refclkLockRetry locked) s (fun t => starts t ∧ t.mem = s.mem ∧
        t.dev.rst.refLocked = true)) ∧
      (¬(r.hold = 4 ∧ r.step = 2 ∧ locked = true) → exec (.refclkLockRetry locked) s = .next s)) ∧
    (r.refLocked = true →
      Completes .refclkLoss s (fun t => Only [.rst] s t ∧ t.dev.rst = { r with refLost := true }) ∧
      Completes .refclkRestored s (fun t => Only [.rst] s t ∧ t.dev.rst = { r with refLost := false })) ∧
    (r.refLocked = false → exec .refclkLoss s = .next s ∧ exec .refclkRestored s = .next s) ∧
    (r.aon = true → ∀ ns : Nat,
      let release := r.held = true ∧ r.step = 1 ∧ s.dev.pins.latched = true ∧ u.mainRails = .on ∧ latchedOff s.dev = false ∧
        s.dev.pwr.cool.flowStopped = false ∧ r.removed = false
      (¬release → Completes (.sysRstN true ns) s (fun t => Only [.rst] s t ∧ t.dev.rst = { r with sysPinLow := false })) ∧
      (release → Completes (.sysRstN true ns) s (fun t => t.mem = s.mem ∧ t.dev.rst.sysPinLow = false ∧
        (if r.refLost then waits t else starts t))) ∧
      (ns < 1000 ∨ r.sysPinLow = true → exec (.sysRstN false ns) s = .next s) ∧
      (1000 ≤ ns → r.sysPinLow = false → moduleRuns s.dev = true → r.withdraw = none → few →
        Completes (.sysRstN false ns) s (fun t => t.dev.rst.sysPinLow = true ∧ t.dev.rst.cause.getLsbD 1 = true ∧
          (if anyActive s.dev then t.mem = s.mem ∧ t.dev.rst.withdraw = some .sysReset ∧ t.dev.nic.stopped = true
            else resets t ∧ t.dev.rst.held = true ∧ t.dev.rst.step = 1))) ∧
      (1000 ≤ ns → r.sysPinLow = false → r.step = 2 → Completes (.sysRstN false ns) s (fun t => Only [.rst] s t ∧
        t.dev.rst.sysPinLow = true ∧ t.dev.rst.held = true ∧ t.dev.rst.step = 1 ∧ t.dev.rst.hold = 0 ∧
        t.dev.rst.cause.getLsbD 1 = true)) ∧
      Completes (.perstN true ns) s (fun t => Only [.rst] s t ∧ t.dev.rst = { r with perstLow := false }) ∧
      (ns < 1000 ∨ r.perstLow = true → exec (.perstN false ns) s = .next s) ∧
      (1000 ≤ ns → r.perstLow = false →
        (r.step < 2 → Completes (.perstN false ns) s (fun t => Only [.rst] s t ∧ t.dev.rst = { r with perstLow := true })) ∧
        (2 ≤ r.step → objGet s.dev 0x601001 = 1 → moduleRuns s.dev = true → Completes (.perstN false ns) s (fun t =>
          HostReset s t ∧ t.dev.rst.perstLow = true ∧ t.dev.rst.cause.getLsbD 2 = true)) ∧
        (2 ≤ r.step → objGet s.dev 0x601001 = 1 → moduleRuns s.dev = false → Completes (.perstN false ns) s (fun t =>
          Only [.rst] s t ∧ t.dev.rst.perstLow = true ∧ t.dev.rst.cause.getLsbD 2 = true)) ∧
        (2 ≤ r.step → objGet s.dev 0x601001 ≠ 1 → moduleRuns s.dev = true → r.withdraw = none → few →
          Completes (.perstN false ns) s (fun t => t.dev.rst.perstLow = true ∧ t.dev.rst.cause.getLsbD 2 = true ∧
            (anyActive s.dev = true → t.dev.rst.withdraw = some .sysReset) ∧
            (anyActive s.dev = false → up → starts t ∧ resets t))))) ∧
    (hifUp s.dev = true → Completes .functionLevelReset s (fun t => HostReset s t ∧ t.dev.rst = r)) ∧
    (hifUp s.dev = false → exec .functionLevelReset s = .next s) ∧
    Completes .prsntSeated s (fun t => Only [.rst, .pwr] s t ∧ t.dev.rst = { r with prsntLow := true, seated := true } ∧
      (r.aon = true → u.enRearm = false → u.supplyHold = false → u.enMem = true → u.enMain = true → u.mainRails = .off →
        memSettled s.dev = true → s.dev.pwr.cool.flowGood = true → s.dev.pwr.cool.leakReading = 0 → latchedOff s.dev = false →
        t.dev.pwr.supply.mainRails = .rising)) ∧
    (r.seated = false → exec .prsntRelease s = .next s) ∧
    (r.seated = true → u.mainRails ≠ .on → Completes .prsntRelease s (fun t => Only [.rst] s t ∧
      t.dev.rst = { r with prsntLow := false, seated := false })) ∧
    (r.seated = true → u.mainRails = .on → Completes .prsntRelease s (fun t => t.mem = s.mem ∧ t.dev.health.state = .off ∧
      t.dev.rst.seated = false ∧ t.dev.rst.removed = true ∧ t.dev.health.removalMark = true ∧
      (moduleRuns s.dev = true → t.dev.nic.stopped = true))) ∧
    (r.removed = false → exec .prsntReturn s = .next s) ∧
    (r.removed = true →
      (latchedOff s.dev = true ∨ s.dev.pwr.cool.flowStopped = true ∨ u.mainRails ≠ .on → Completes .prsntReturn s (fun t =>
        Only [.rst] s t ∧ t.dev.rst.removed = false ∧ t.dev.rst.seated = true ∧ t.dev.rst.cause.getLsbD 9 = true)) ∧
      (latchedOff s.dev = false → s.dev.pwr.cool.flowStopped = false → u.mainRails = .on → up → Completes .prsntReturn s (fun t =>
        starts t ∧ resets t ∧ t.dev.rst.removed = false ∧ t.dev.rst.cause.getLsbD 9 = true ∧
        t.dev.health.sysResets = s.dev.health.sysResets))) ∧
    (r.withdraw = none → exec .withdrawEnd s = .next s) ∧
    (∀ why, r.withdraw = some why → Completes .withdrawEnd s (fun t => t.dev.rst.withdraw = none ∧
      match why with
      | .sysReset => up → starts t ∧ resets t
      | .outOfService => t.dev.health.state = .outOfService ∧ t.dev.health.oosMark = true ∧ t.dev.lnd = []
      | .railsOff => t.dev.health.state = .off ∧ t.dev.pwr.supply.mainRails = .off ∧ t.dev.rst.step = 1 ∧ portsDown t.dev
      | .flowStop => t.dev.health.state = .off ∧ t.dev.pwr.supply.stopCause = 1 ∧ portsDown t.dev
      | .leakStop => t.dev.health.state = .off ∧ t.dev.pwr.supply.stopCause = 2 ∧ t.dev.pwr.supply.pwrOffReq = true ∧
        portsDown t.dev))

/-- R175, R204, R411, R421, R424, R427, R429, R431, R434 to R436, R440, R441, R453 and R526. -/
def Obligations.StartPhases : Prop :=
  ∀ (s : State),
    let d := s.dev
    let r := d.rst
    let inStart := hubUp d = true ∧ d.health.state = .start
    let up := r.sysPinLow = false ∧ r.refLost = false
    let failed (c : Nat) (t : State) : Prop := StartBegun s t ∧ t.dev.rst.failCause = c ∧ t.dev.rst.failPhase = r.phase ∧
      t.dev.rst.failedStarts = min 15 (r.failedStarts + 1) ∧ t.dev.rst.cause.getLsbD 11 = true ∧ t.dev.lnd = [] ∧
      cntGet t.dev (rstBase + 0x208) = bumped (cntGet d (rstBase + 0x208)) ∧
      cntGet t.dev (rstBase + 0x210) = bumped (cntGet d (rstBase + 0x210))
    let at_ (n : Nat) (t : State) : Prop := t.dev.rst.phase = n ∧ t.dev.rst.hold = 0 ∧ t.dev.health.state = .start
    (∀ i : PhaseIn, (inStart → i.fail = none → 6 ≤ r.phase → exec (.startPhaseDone i) s = .next s) ∧
      (¬inStart → exec (.startPhaseDone i) s = .next s)) ∧
    (inStart →
      (up → ∀ (i : PhaseIn) (c : Nat), i.fail = some c → c ∈ [2, 3, 4, 6, 7, 8] → r.phase ≤ 5 →
        Completes (.startPhaseDone i) s (failed c)) ∧
      (∀ i : PhaseIn, i.fail = none →
        (r.phase = 0 →
          (d.health.oosMark = true → Completes (.startPhaseDone i) s (fun t => t.dev.health.state = .outOfService)) ∧
          (d.health.oosMark = false → (bootRom i.copyBad d).2 = false → Completes (.startPhaseDone i) s (fun t =>
            t.dev.health.state = .recovery ∧ t.dev.rst.failCause = 5 ∧ t.dev.lnd = [])) ∧
          (d.health.oosMark = false → (bootRom i.copyBad d).2 = true → r.trial = false → 3 ≤ r.failedStarts →
            Completes (.startPhaseDone i) s (fun t => t.dev.health.state = .recovery ∧ t.dev.lnd = [])) ∧
          (d.health.oosMark = false → (bootRom i.copyBad d).2 = true → (r.trial = true ∨ r.failedStarts < 3) →
            Completes (.startPhaseDone i) s (fun t => at_ 1 t ∧ t.mem = s.mem ∧
              slotOk t.dev.fw t.dev.fw.running = true))) ∧
        (r.phase = 1 →
          (fusesOk d.fuses = false → up → Completes (.startPhaseDone i) s (failed 3)) ∧
          (fusesOk d.fuses = true → i.defectLost = false → Completes (.startPhaseDone i) s (fun t => at_ 2 t ∧ t.mem = s.mem ∧
            t.dev.health.defects = d.health.defects ∧
            ∀ l, l < 104 → landStateOf t.dev l = (if d.fuses.landingEnable.getLsbD l = false then 1
              else if landListed d l then 2 else 0)))) ∧
        (r.phase = 2 → Completes (.startPhaseDone i) s (fun t => at_ 3 t ∧ t.mem = s.mem ∧
          (t.dev.health.defects ≠ d.health.defects → t.dev.health.defectSeq = d.health.defectSeq + 1 ∧
            t.dev.health.defectInc = r.incarnation) ∧
          (∀ l ∈ i.badLandings, l < 104 → landStateOf d l = 0 → landStateOf t.dev l = 3) ∧
          (∀ g ∈ i.badGalleries, g < 12 → g ∈ t.dev.memc.galHole) ∧
          ∀ l, l ∉ i.badLandings → galleryOf l ∉ i.badGalleries → landStateOf t.dev l = landStateOf d l)) ∧
        (let bad (k : Nat) : Nat := ((List.range 16).filter (fun c => !(chanWorks d (16 * k + c)) ||
            decide (16 * k + c ∈ i.badChannels))).length
          let none_ := ∀ k, k < 8 → 1 < bad k
          (r.phase = 3 ∨ r.phase = 4 → none_ → up → Completes (.startPhaseDone i) s (failed 8)) ∧
          (r.phase = 3 → ¬none_ → Completes (.startPhaseDone i) s (fun t => at_ 4 t ∧ t.mem = s.mem ∧
            ∀ k, k < 8 → t.dev.memc.stackUp.getLsbD k = decide (bad k ≤ 1))) ∧
          (r.phase = 4 → ¬none_ → Completes (.startPhaseDone i) s (fun t => at_ 5 t ∧
            (∀ k, k < 8 → t.dev.memc.stackUp.getLsbD k = decide (bad k ≤ 1)) ∧
            ∀ a, t.mem.byte a = if a < 0x011000000000 then 0 else s.mem.byte a))) ∧
        (r.phase = 5 → d.health.defects.all (fun e => e.kind != 7) = true →
          let run := (List.range 104).filter (fun l => landStateOf d l == 0 && !(i.badLandings.contains l))
          (run = [] → up → Completes (.startPhaseDone i) s (failed 9)) ∧
          (run ≠ [] → Completes (.startPhaseDone i) s (fun t => t.mem = s.mem ∧ t.dev.health.state = .start ∧
            (t.dev.rst.phase = 6 ∨ t.dev.rst.phase = 7) ∧ t.dev.health.landingsEnabled = run.length ∧
            ∀ l n, run[n]? = some l → logicalOf t.dev l = n)))) ∧
      (up → Completes .startTimeout s (failed 1)) ∧
      (up → moduleRuns d = true → Completes .hmpWatchdog s (fun t => failed 0x0A t ∧ t.dev.rst.cause.getLsbD 5 = true))) ∧
    (¬inStart → exec .startTimeout s = .next s) ∧
    (moduleRuns d = false → exec .hmpWatchdog s = .next s) ∧
    (moduleRuns d = true → d.health.state ≠ .start → r.withdraw = none →
      (d.health.state = .maint ∨ d.health.state = .recovery ∨ (within24h d.tim.now d.health.sysResets).length < 3) →
      Completes .hmpWatchdog s (fun t => t.dev.rst.cause.getLsbD 5 = true ∧
        (anyActive d = true → t.dev.rst.withdraw = some .sysReset) ∧ (anyActive d = false → up → StartBegun s t))) ∧
    (∀ bad : List Nat,
      (r.coreBusy = false → exec (.coreResetDone bad) s = .next s) ∧
      (r.coreBusy = true → Completes (.coreResetDone bad) s (fun t => Only [.rst, .health, .kmd, .cnt] s t ∧
        t.dev.rst.coreBusy = false ∧
        ∀ l, landStateOf t.dev l = if l ∈ bad ∧ l < 104 ∧ landStateOf d l = 0 then 3 else landStateOf d l)))

/-- R447, R456, R459, R470 and R541. -/
def Obligations.ScrubAndZeroFill : Prop :=
  ∀ (s : State),
    let d := s.dev
    (hifUp d = true → ∀ v : W32,
      let slot := (v.extractLsb' 0 5).toNat
      let may := isAdmitted d = true ∧ ctxValid d slot = true ∧ d.health.scrub = none ∧ d.rst.coreBusy = false ∧
        d.rst.withdraw = none
      (may → Completes (.hifCtxScrub v) s (fun t => t.mem = s.mem ∧ t.dev.hif.scrubBusy = true ∧
        (∃ c, t.dev.health.scrub = some c ∧ c.slot = slot ∧ c.ctx = ctxWord d slot ∧
          c.zero = (objGet d 0x620005 == 1) ∧ c.acceptedAt = d.tim.count) ∧
        cntGet t.dev (rstBase + 0x220) = bumped (cntGet d (rstBase + 0x220)))) ∧
      (¬may → Completes (.hifCtxScrub v) s (fun t => Only [.hif] s t ∧ t.dev.hif.err.getLsbD 1 = true))) ∧
    (d.health.scrub = none → exec .scrubComplete s = .next s) ∧
    (∀ c, d.health.scrub = some c → c.slot < 32 → d.rst.hangPending = false → Completes .scrubComplete s (fun t =>
      t.dev.health.scrub = none ∧ t.dev.hif.scrubBusy = false ∧ ctxValid t.dev c.slot = false ∧
      (∀ ring, ring < 8 → (ringGet t.dev c.slot ring).run = none ∧ (ringGet t.dev c.slot ring).cfg.getLsbD 31 = false) ∧
      t.dev.health.report.ctx = c.ctx ∧ t.dev.health.report.result = (if c.zero then 2 else 1))) ∧
    (d.health.fills = [] → exec .zeroFillDone s = .next s) ∧
    (∀ c rest, d.health.fills = c :: rest → Completes .zeroFillDone s (fun t => Only [.mem, .memc, .health, .cnt] s t ∧
      t.dev.health.fills = rest ∧
      (d.health.report.ctx = c.ctx → d.health.report.result = 2 → t.dev.health.report =
        { d.health.report with result := 3, zeroBytes := fillBytes d c.pages }) ∧
      ∀ p ∈ c.pages, p.1 % 4096 = 0 → ∀ i, i < p.2 / 4096 * 4096 → pageRetired d (p.1 + i) = false →
        ∀ k, keyOf d (p.1 + i) = some k → t.mem.byte k = 0))

/-! ### The management link (R488 to R516) -/

/-- R467, R488, R491, R494 to R499, R501, R502 and R504. -/
def Obligations.FramesAndReads : Prop :=
  ∀ (f : Frame) (s : State),
    let d := s.dev
    let key := frameKey f
    let got := objCnt 0x101006
    (∀ row ∈ frameRows,
      (row.2 f = false ∨ kmdHears d = false ∨ frameMine f d = false → exec (row.1 f) s = .next s) ∧
      (row.2 f = true → kmdHears d = true → frameMine f d = true →
        (frameOk f = false → Completes (row.1 f) s (fun t => Only [.cnt] s t ∧
          CountersGrow [got, objCnt 0x101007] d t.dev)) ∧
        (frameOk f = true → frameAuth f d = false → Completes (row.1 f) s (fun t => Only [.kmd, .cnt] s t ∧
          CountersGrow [got, objCnt 0x101008] d t.dev ∧ t.dev.kmd.lastCtr = d.kmd.lastCtr ∧
          t.dev.kmd.objs = d.kmd.objs ∧ t.dev.kmd.sent.length = d.kmd.sent.length + 1)) ∧
        (frameOk f = true → frameAuth f d = true →
          (8 ≤ f.queued → Completes (row.1 f) s (fun t => Only [.kmd, .cnt] s t ∧
            CountersGrow [got, objCnt 0x10100A] d t.dev ∧ t.dev.kmd.lastCtr = f.counter ∧ t.dev.kmd.objs = d.kmd.objs ∧
            t.dev.kmd.answers = d.kmd.answers)) ∧
          (f.queued < 8 → keptAnswer f d ≠ none → Completes (row.1 f) s (fun t => Only [.kmd, .cnt] s t ∧
            CountersGrow [got, objCnt 0x101009] d t.dev ∧ t.dev.kmd.lastCtr = f.counter ∧ t.dev.kmd.objs = d.kmd.objs ∧
            t.dev.kmd.answers = d.kmd.answers))))) ∧
    (Heard f d →
      (f.mtype = 1 → Completes (.kmdRead f) s (fun t => Only [.kmd, .cnt, .freeCtr] s t ∧ (∃ body, Answered f body t) ∧
        (objRow key = none → Answered f (plainAnswer (if objIndex (key / 256) then 2 else 1) 0 key d) t) ∧
        ∀ r, objRow key = some r →
          (r.acc = .wo → Answered f (plainAnswer 5 0 key d) t) ∧
          (r.acc = .rw → r.ty ≠ 6 → r.ty ≠ 7 → r.ty ≠ 8 →
            Answered f (respBody 0 r.ty key [] (leBytes (typeBytes r.ty) (rwNum d key))) t))) ∧
      (f.mtype = 3 → Completes (.readBlock f) s (fun t => Only [.kmd, .cnt, .freeCtr] s t ∧ (∃ body, Answered f body t) ∧
        ∀ r, objRow key = some r → r.ty = 8 → r.acc = .rw →
          let off := bodyN f 4 4
          let len := bodyN f 8 2
          let v := readBlob d r
          Answered f (if len = 0 ∨ 1024 < len ∨ v.length < off + len then plainAnswer 4 0 key d
            else respBody 0 8 key (leBytes 8 v.length) ((v.drop off).take len)) t)) ∧
      (key ∈ storedKeys → WriteTaken f key d → Completes (.kmdWrite f) s (fun t => Only [.kmd, .cnt] s t ∧
        Answered f (plainAnswer 0 0 key d) t ∧ objGet t.dev key = wroteValue f)) ∧
      (WriteTaken f 0x530002 d → Completes (.kmdWrite f) s (fun t => Only [.kmd, .memc, .cnt] s t ∧
        Answered f (plainAnswer 0 0 key d) t ∧ objGet t.dev key = wroteValue f ∧
        t.dev.memc = { d.memc with gateKeep := t.dev.memc.gateKeep } ∧
        ∀ n, n < 116 → storeIdle d n = true → gateSetting t.dev n = gateSetting d n)) ∧
      (f.mtype = 2 → (writeAbort (writeReq f) d).1 ≠ 0 → Completes (.kmdWrite f) s (fun t => Only [.kmd, .cnt] s t ∧
        t.dev.kmd.objs = d.kmd.objs ∧ t.dev.kmd.blobs = d.kmd.blobs ∧ t.dev.kmd.lastCtr = f.counter)) ∧
      (f.mtype = 4 →
        let bad := blockAbort key (bodyN f 3 1)
        let mine := ∀ x, d.kmd.xfer = some x → x.idx * 256 + x.sub = key
        let so := blockSoFar key (bodyN f 4 4) (bodyN f 8 4) (bodyN f 12 2) d
        (bad ≠ 0 → Completes (.writeBlock f) s (fun t => Only [.kmd, .cnt] s t ∧ Answered f (plainAnswer bad 0 key d) t ∧
          t.dev.kmd.xfer = d.kmd.xfer)) ∧
        (bad = 0 → keyListed key d = false → Completes (.writeBlock f) s (fun t => Only [.kmd, .cnt] s t ∧
          Answered f (plainAnswer 6 0 key d) t ∧ t.dev.kmd.xfer = d.kmd.xfer)) ∧
        (bad = 0 → keyListed key d = true → ¬mine → Completes (.writeBlock f) s (fun t => Only [.kmd, .cnt] s t ∧
          Answered f (if bodyN f 4 4 = 0 ∧ bodyN f 8 4 = blobSize key ∧ bodyN f 12 2 ≠ 0 ∧ bodyN f 12 2 ≤ 1024 ∧
            bodyN f 12 2 ≤ blobSize key then plainAnswer 7 2 key d else plainAnswer 4 0 key d) t ∧
          t.dev.kmd.xfer = d.kmd.xfer)) ∧
        (∀ w, bad = 0 → keyListed key d = true → mine → blockWhole f d = some w → (writeAbort w d).1 ≠ 0 →
          Completes (.writeBlock f) s (fun t => Only [.kmd, .cnt] s t ∧ t.dev.kmd.xfer = none ∧
            Answered f (plainAnswer (writeAbort w d).1 (writeAbort w d).2 key d) t ∧ t.dev.kmd.objs = d.kmd.objs ∧
            t.dev.kmd.blobs = d.kmd.blobs)) ∧
        (bad = 0 → keyListed key d = true → mine → so = none → Completes (.writeBlock f) s (fun t => Only [.kmd, .cnt] s t ∧
          Answered f (plainAnswer 4 0 key d) t ∧ t.dev.kmd.xfer = none)) ∧
        (∀ l, bad = 0 → keyListed key d = true → mine → so = some l → (l ++ f.body.drop 16).length < bodyN f 8 4 → Completes (.writeBlock f) s (fun t =>
          Only [.kmd, .cnt] s t ∧ Answered f (plainAnswer 0 0 key d) t ∧
          t.dev.kmd.xfer = some ⟨key / 256, key % 256, bodyN f 8 4, l ++ f.body.drop 16, d.tim.now⟩))) ∧
      (f.mtype = 6 → Completes (.heartbeat f) s (fun t => Only [.kmd, .cnt, .health] s t ∧ (∃ body, Answered f body t) ∧
        t.dev.kmd.lastHb = d.tim.count ∧ t.dev.kmd.hbAt = d.tim.now ∧ t.dev.kmd.mgmtLost = false ∧
        t.dev.kmd.ctlMac = some f.srcMac ∧ t.dev.health.degraded.getLsbD 5 = false ∧
        cntGet t.dev (objCnt 0x102002) = bumped (cntGet d (objCnt 0x102002)) ∧
        (d.health.degraded.getLsbD 5 = false →
          t.dev.kmd.ev = d.kmd.ev.filter (fun e => decide (bodyN f 0 4 < e.seq))))))

/-- R38, R39, R178, R248, R282, R293, R373, R379, R399, R414, R421, R431, R439, R453, R456, R464, R465, R484, R485, R508,
R509 and R528. -/
def Obligations.ActingWrites : Prop :=
  ∀ (f : Frame) (s : State), objLive s.dev (frameKey f) = true → s.dev.rst.withdraw = none →
    let d := s.dev
    let v := wroteValue f
    let data := f.body.drop 16
    let done (t : State) : Prop := Answered f (plainAnswer 0 0 (frameKey f) d) t
    let up := d.rst.sysPinLow = false ∧ d.rst.refLost = false
    let calm := d.health.state = .maint ∨ d.health.state = .recovery
    let st (e : Dev) (p : Nat) : PState := (portGet e p).st
    (WriteTaken f 0x210002 d → Completes (.pplW f) s (fun t => Only [.tim, .kmd, .cnt] s t ∧ done t ∧
      t.dev.tim = { d.tim with sched := d.tim.sched ++ [⟨bodyN f 4 8, .cap v⟩] })) ∧
    (WriteTaken f 0x212001 d → Completes (.ffMhz f) s (fun t => Only [.tim, .kmd, .cnt] s t ∧ done t ∧
      t.dev.tim = { d.tim with sched := d.tim.sched ++ [⟨bodyN f 4 8, .ff v⟩] })) ∧
    (WriteTaken f 0x240003 d → Completes (.sensingClear f) s (fun t => Only [.pwr, .kmd, .hif, .health, .cnt] s t ∧ done t ∧
      t.dev.pwr.cool = { d.pwr.cool with sensingDegraded := false, sensingCause := 0, balanceRun := 0, faultRun := 0 } ∧
      (∀ g, g < 12 → (galGet t.dev g).sensorFault = false) ∧ t.dev.health.degraded.getLsbD 4 = false)) ∧
    (WriteTaken f 0x440009 d → portsRun d v = true → Completes (.portRetrain f) s (fun t => Only portParts s t ∧ done t ∧
      (2 ≤ laneCount (usable d v) → (st d v = .active → portIn .drain 1 v t.dev) ∧ (st d v = .held → st t.dev v = .detect)) ∧
      (laneCount (usable d v) < 2 → st t.dev v = .retired))) ∧
    (WriteTaken f 0x44000B d →
      let p := v / 256 % 16
      let m : BitVec 4 := BitVec.ofNat 4 v
      Completes (.laneUnretire f) s (fun t => Only portParts s t ∧ done t ∧
        (portGet t.dev p).retired = (portGet d p).retired &&& ~~~m ∧ (st d p ≠ .retired → st t.dev p = st d p) ∧
        (∀ q, q ≠ p → (portGet t.dev q).retired = (portGet d q).retired))) ∧
    (WriteTaken f 0x440001 d → (∀ p, p < 16 → portsRun d p = true ∧ 2 ≤ laneCount (usable d p)) → isLive d = true →
      Completes (.portEnable f) s (fun t => Only portParts s t ∧ done t ∧ objGet t.dev 0x440001 = v ∧
        ∀ p, p < 16 → st t.dev p = (if (BitVec.ofNat 16 v).getLsbD p then (if st d p = .disabled then .detect else st d p)
          else if st d p = .disabled ∨ st d p = .retired ∨ st d p = .drain then st d p
          else if st d p = .active then .drain else .disabled))) ∧
    (WriteTaken f 0x602001 d → (calm ∨ (within24h d.tim.now d.health.sysResets).length < 3) →
      Completes (.resetSystem f) s (fun t => t.dev.rst.cause.getLsbD 3 = true ∧
        (anyActive d = true → done t ∧ t.mem = s.mem ∧ t.dev.rst.withdraw = some .sysReset) ∧
        (anyActive d = false → up → StartBegun s t ∧ t.dev.lnd = []))) ∧
    (WriteTaken f 0x602002 d → (d.health.state = .maint ∨ (within24h d.tim.now d.health.coreResets).length < 4) →
      Completes (.resetCore f) s (fun t => done t ∧ t.dev.rst.cause.getLsbD 4 = true ∧ t.dev.rst.coreBusy = true ∧
        (∀ l, l < 104 → (lndGet t.dev l).phase = .idle ∧ (lndGet t.dev l).trk = []) ∧
        (∀ a, 0x020000000000 ≤ a → a < 0x030000000000 → t.mem.byte a = 0) ∧
        cntGet t.dev (rstBase + 0x218) = bumped (cntGet d (rstBase + 0x218)))) ∧
    (∀ n, WriteTaken f 0x602003 d → slotOfId d v = some n → Completes (.scrubContext f) s (fun t =>
      Only [.health, .hif, .kmd, .cnt, .lnd, .ls] s t ∧ done t ∧
      (∃ c, t.dev.health.scrub = some c ∧ c.slot = n ∧ c.ctx = ctxWord d n ∧ c.zero = (objGet d 0x620005 == 1)) ∧
      cntGet t.dev (rstBase + 0x220) = bumped (cntGet d (rstBase + 0x220)))) ∧
    (WriteTaken f 0x411002 d → Completes (.admitModule f) s (fun t => done t ∧ t.mem = s.mem ∧
      t.dev.health.state = (if t.dev.health.degraded = 0 then .ready else .degraded) ∧ t.dev.rst.phase = 8 ∧
      t.dev.rst.hold = 0 ∧ t.dev.rst.failedStarts = 0 ∧ t.dev.kmd.hbAt = d.tim.now ∧
      ∀ p, p < 16 → st d p = .admitWait → st t.dev p = .active)) ∧
    (WriteTaken f 0x411003 d →
      let p := leNat (data.take 1)
      let inc : W32 := BitVec.ofNat 32 (leNat ((data.drop 4).take 4))
      Completes (.portAdmit f) s (fun t => Only [.health, .kmd, .cnt] s t ∧ done t ∧
        (if (portGet d p).ident.any (fun i => i.incarnation == inc) then spGet 0 t.dev.health.portAdmitted p = inc
          else spGet 0 t.dev.health.portAdmitStored p = inc))) ∧
    (∀ w, Heard f d → f.mtype = 4 → frameKey f = 0x420001 → blockAbort (frameKey f) (bodyN f 3 1) = 0 →
      (∀ x, d.kmd.xfer = some x → x.idx * 256 + x.sub = 0x420001) → blockWhole f d = some w → writeAbort w d = (0, 0) →
      Completes (.routeTable f) s (fun t => Only [.rtr, .kmd, .cnt] s t ∧ done t ∧ t.dev.kmd.xfer = none ∧
        ∀ n, n < 4096 → spGet 0 t.dev.rtr.table n = tableEntry w.val n)) ∧
    (WriteTaken f 0x420002 d → Completes (.routePatch f) s (fun t => Only [.rtr, .kmd, .cnt] s t ∧ done t ∧
      ∀ n, spGet 0 t.dev.rtr.table n = if n = leNat (data.take 2) then BitVec.ofNat 64 (leNat (data.drop 2))
        else spGet 0 d.rtr.table n)) ∧
    (WriteTaken f 0x510011 d → Completes (.ilvApply f) s (fun t => Only [.memc, .kmd, .cnt] s t ∧ done t ∧
      t.dev.memc = { d.memc with ilv := stagedRegions d })) ∧
    (WriteTaken f 0x610009 d → Completes (.defectRemove f) s (fun t => Only [.health, .kmd, .cnt] s t ∧ done t ∧
      t.dev.health = { d.health with
        defects := d.health.defects.eraseIdx v, defectSeq := d.health.defectSeq + 1, defectInc := d.rst.incarnation })) ∧
    (WriteTaken f 0x620004 d → anyActive d = false → up → Completes (.oosClear f) s (fun t => StartBegun s t ∧
      t.dev.health.oosMark = false ∧ t.dev.health.sysResets = [] ∧ t.dev.health.coreResets = [])) ∧
    (WriteTaken f 0x600002 d →
      (v = 4 → Completes (.quiesceRequest f) s (fun t => Only [.health, .kmd, .cnt] s t ∧ done t ∧
        (isUp d = true → t.dev.kmd.pendState = 4 ∧ t.dev.kmd.pendSince = d.tim.now ∧ t.dev.health = d.health) ∧
        (isUp d = false → t.dev.health = { d.health with state := .quiesced }))) ∧
      (v = 5 → Completes (.maintRequest f) s (fun t => Only [.health, .kmd, .cnt] s t ∧ done t ∧
        t.dev.health = { d.health with state := .maint })) ∧
      (v = 2 → Completes (.resumeRequest f) s (fun t => Only [.health, .kmd, .cnt] s t ∧ done t ∧
        t.dev.health = { d.health with state := if d.health.degraded = 0 then .ready else .degraded }))) ∧
    (WriteTaken f 0x803001 d → Completes (.healthConfirm f) s (fun t => Only [.fw, .kmd, .cnt] s t ∧ done t ∧
      t.dev.fw.trial = 0 ∧ t.dev.fw.confirmUntil = none ∧ t.dev.fw.stState = 0 ∧ t.dev.fw.active = d.fw.active ∧
      d.fw.secFuse ≤ t.dev.fw.secFuse)) ∧
    (WriteTaken f 0xA00003 d → Completes (.lsStart f) s (fun t => Only [.ls, .tim, .kmd, .cnt] s t ∧ done t ∧
      t.dev.ls.state = 1 ∧ t.dev.ls.partner = objGet d 0xA00001 ∧ t.dev.ls.ctx = objGet d 0xA00002 ∧
      t.dev.tim = { d.tim with sched := d.tim.sched ++ [⟨v, .lsStart (objGet d 0xA00001) (objGet d 0xA00002)⟩] })) ∧
    (WriteTaken f 0xA00004 d → Completes (.lsStop f) s (fun t => Only [.ls, .tim, .kmd, .cnt] s t ∧ done t ∧
      (d.ls.state = 1 ∨ d.ls.state = 2 → t.dev.ls.state = 4 ∧ t.dev.ls.endCause = 5 ∧
        t.dev.tim = { d.tim with sched := d.tim.sched.filter (fun a => !(schedIsLs a)) }) ∧
      (¬(d.ls.state = 1 ∨ d.ls.state = 2) → t.dev.ls = d.ls ∧ t.dev.tim = d.tim))) ∧
    (WriteTaken f 0x301003 d → Completes (.acceptBackwardStep f) s (fun t => Only [.tim, .ls, .kmd, .hif, .cnt] s t ∧ done t ∧
      t.dev.tim.count = d.tim.count - BitVec.ofNat 64 d.tim.backwardBy ∧ t.dev.tim.backwardHold = false ∧
      t.dev.tim.slew = 0 ∧ t.dev.tim.sched = []))

/-- R44, R373, R467, R499, R502, R504, R506, R509 and R527. -/
def Obligations.ManagementTimers : Prop :=
  ∀ (s : State),
    let d := s.dev
    (∀ meanW : Nat,
      (isLive d = false → exec (.telemetryPeriod meanW) s = .next s) ∧
      (isLive d = true → Completes (.telemetryPeriod meanW) s (fun t => Only [.tim, .kmd, .freeCtr] s t ∧
        t.dev.kmd.overSent = false ∧ (hubUp d = true → t.dev.tim.count.toNat % 2 ^ 24 = 0) ∧
        (objGet d 0x700001 = 0 → t.dev.kmd.telemetry = d.kmd.telemetry ∧ t.dev.kmd.sent = d.kmd.sent) ∧
        (objGet d 0x700001 ≠ 0 → t.dev.kmd.telemetry.length = 64 ∧
          t.dev.kmd.telemetry.take 8 = leBytes 8 (t.dev.tim.count.toNat / 2 ^ 24) ∧
          t.dev.kmd.sent.length = d.kmd.sent.length + (if d.kmd.ctlMac = none then 0 else 1))))) ∧
    (d.kmd.xfer = none → exec .writeBlockTimeout s = .next s) ∧
    (∀ x, d.kmd.xfer = some x → Completes .writeBlockTimeout s (fun t => Only [.tim, .kmd] s t ∧
      t.dev.kmd = { d.kmd with xfer := none } ∧ t.dev.tim.now = max d.tim.now (x.since + 5 * 10 ^ 9))) ∧
    (let ready := d.kmd.pendState = 4 ∧ isUp d = true ∧ (∀ n, n < 32 → kernelRuns d n = false) ∧ enginesIdle d = true ∧
        topkIdle d = true ∧ d.rst.coreBusy = false ∧ d.health.scrub = none
     (ready → Completes .quiesceComplete s (fun t => Only [.health, .kmd, .cnt] s t ∧
        t.dev.health = { d.health with state := .quiesced } ∧ t.dev.kmd.pendState = 0)) ∧
     (¬ready → exec .quiesceComplete s = .next s)) ∧
    (d.kmd.pendState = 4 → Completes .quiesceTimeout s (fun t => Only [.tim, .kmd, .cnt] s t ∧ t.dev.kmd.pendState = 0)) ∧
    (d.kmd.pendState ≠ 4 → exec .quiesceTimeout s = .next s) ∧
    (∀ t0, d.fw.confirmUntil = some t0 → d.fw.trial = 1 → Completes .trialExpiry s (fun t => Only [.fw, .tim, .kmd, .cnt] s t ∧
      t.dev.fw = { d.fw with trial := 2, confirmUntil := none } ∧ t.dev.tim.now = max d.tim.now t0)) ∧
    (d.fw.confirmUntil = none ∨ d.fw.trial ≠ 1 → exec .trialExpiry s = .next s) ∧
    (isAdmitted d = true → d.kmd.mgmtLost = false → Completes .mgmtLost s (fun t => Only [.tim, .kmd, .health, .cnt] s t ∧
      t.dev.kmd.mgmtLost = true ∧ t.dev.health.degraded.getLsbD 5 = true ∧
      t.dev.tim.now = max d.tim.now (d.kmd.hbAt + 30 * 10 ^ 9) ∧
      cntGet t.dev (objCnt 0x102003) = bumped (cntGet d (objCnt 0x102003)))) ∧
    (isAdmitted d = false ∨ d.kmd.mgmtLost = true → exec .mgmtLost s = .next s) ∧
    (let e := d.pwr.lim.eff
     (isAdmitted d = true ∧ d.kmd.mgmtLost = true ∧ d.pwr.lim.lostCap = false → Completes .lostCapApply s (fun t =>
        Only [.pwr, .tim, .kmd, .hif, .cnt] s t ∧ t.dev.pwr.lim.lostCap = true ∧ t.dev.pwr.lim.limit =
          min e.pplW (min (if d.pwr.cool.sensingDegraded then e.pplW / 2 else e.pplW) (e.lostCapPct * e.pplW / 100)))) ∧
     (¬(isAdmitted d = true ∧ d.kmd.mgmtLost = true ∧ d.pwr.lim.lostCap = false) → exec .lostCapApply s = .next s)) ∧
    (d.kmd.ev = [] ∨ kmdHears d = false ∨ d.kmd.ctlMac = none → exec .eventResend s = .next s) ∧
    (d.kmd.ev ≠ [] → kmdHears d = true → d.kmd.ctlMac ≠ none → Completes .eventResend s (fun t => Only [.kmd] s t ∧
      t.dev.kmd.ev = d.kmd.ev ∧ t.dev.kmd.evLost = 0 ∧
      t.dev.kmd.sent.length = d.kmd.sent.length + (if 32 < d.kmd.ev.length then 2 else 1)))

/-! ### Service port and test access port (R517 to R525, R575, R576) -/

/-- R5, R517, R520, R522 to R525. -/
def Obligations.ServicePort : Prop :=
  ∀ (s : State),
    let d := s.dev
    let w := d.fw
    let on := hubUp d = true ∧ d.health.state ≠ .off ∧ d.jtag.ir ≠ 0
    let free := on ∧ svcBusy w = false ∧ w.copying = false
    let ref (r : Nat) (t : State) : Prop := Only [.fw] s t ∧ t.dev.fw = { w with error := true, lastResult := r, irq := true }
    let acc (op : Nat) (g : Fw → Fw) (t : State) : Prop := Only [.fw] s t ∧ t.dev.fw = g { w with lastCmd := op, error := false }
    let rows (addr : W32) (n : Nat) (data : List Byte) : List Instr :=
      [.readId addr, .readFlash addr n, .stageErase addr data, .stageProgram addr data, .stageCommit addr data,
        .keyWrite addr data, .keyErase addr data]
    (∀ (addr : W32) (n : Nat) (data : List Byte),
      (¬on → exec (.readStatus addr) s = .next s ∧ ∀ i ∈ rows addr n data, exec i s = .next s) ∧
      (on → ¬free → ∀ i ∈ rows addr n data, Completes i s (ref 0x10)) ∧
      (on → (addr = 0 → Completes (.readStatus addr) s (fun t => Only [.fw] s t ∧ t.dev.fw = { w with
          readData := leBytes 8 (w.stagedBytes * 2 ^ 32 + (if svcBusy w then 2 ^ 31 else 0) + (if w.error then 2 ^ 30 else 0) +
            w.lastResult * 2 ^ 16 + w.stState * 2 ^ 12 + w.lastCmd)
          error := false, irq := false })) ∧
        (addr ≠ 0 → Completes (.readStatus addr) s (ref 0x11))) ∧
      (free →
        (addr = 0 → Completes (.readId addr) s (fun t => Only [.fw] s t ∧ t.dev.fw = { w with
          readData := leBytes 4 (if d.fuses.grade = 96 then 0x4B041B00 else 0x4B042B00) ++ leBytes 4 d.rst.incarnation.toNat })) ∧
        (addr ≠ 0 → Completes (.readId addr) s (ref 0x11)) ∧
        (let a := addr.toNat
         let readable := (0x4000000 ≤ a ∧ a + n ≤ 0x6000000) ∨ (0x7000000 ≤ a ∧ a + n ≤ 0x8000000)
         (readable → Completes (.readFlash addr n) s (fun t => Only [.fw] s t ∧ t.dev.fw = { w with
            readData := (List.range n).map (fun i => spGet flashErased w.flash (a + i)) })) ∧
         (¬readable → Completes (.readFlash addr n) s (ref 0x11)) ∧
         (addr = 0 ∧ data = [] →
          Completes (.stageErase addr data) s (acc 0x20 (fun x => { x with job := some .erase, stState := 4, stVersion := 0 })) ∧
          (w.stState ≠ 0 → w.stState ≠ 2 → w.stState ≠ 5 →
            Completes (.stageCommit addr data) s (acc 0x31 (fun x => { x with job := some .commit }))) ∧
          (w.stState = 0 ∨ w.stState = 2 ∨ w.stState = 5 → Completes (.stageCommit addr data) s (ref 0x13))) ∧
         (¬(addr = 0 ∧ data = []) → Completes (.stageErase addr data) s (ref 0x11) ∧ Completes (.stageCommit addr data) s (ref 0x11)) ∧
         (let fits := a % 256 = 0 ∧ 0 < data.length ∧ data.length ≤ 4096 ∧ a + data.length ≤ 0x2000000
          let twice := ∃ r ∈ w.progd, a < r.1 + r.2 ∧ r.1 < a + data.length
          (¬fits → Completes (.stageProgram addr data) s (ref 0x11)) ∧
          (fits → twice → Completes (.stageProgram addr data) s (ref 0x12)) ∧
          (fits → ¬twice → w.stState = 2 ∨ w.stState = 5 → Completes (.stageProgram addr data) s (ref 0x13)) ∧
          (fits → ¬twice → w.stState ≠ 2 → w.stState ≠ 5 → Completes (.stageProgram addr data) s (acc 0x02 (fun x => { x with
            bufs := w.bufs ++ [(a, data)], progd := w.progd ++ [(a, data.length)], stState := 1 })))) ∧
         (¬(a ≤ 1 ∧ data.length = 32) → Completes (.keyWrite addr data) s (ref 0x11)) ∧
         (a ≤ 1 → data.length = 32 → spGet [] d.kmd.keys a ≠ [] → Completes (.keyWrite addr data) s (ref 0x14)) ∧
         (a ≤ 1 → data.length = 32 → spGet [] d.kmd.keys a = [] →
          Completes (.keyWrite addr data) s (acc 0x41 (fun x => { x with job := some (.keyWrite a data) }))) ∧
         (let may := d.health.state ∈ [.start, .maint, .recovery, .outOfService]
          (¬(a ≤ 1 ∧ data = []) → Completes (.keyErase addr data) s (ref 0x11)) ∧
          (a ≤ 1 → data = [] → ¬may → Completes (.keyErase addr data) s (ref 0x15)) ∧
          (a ≤ 1 → data = [] → may →
            Completes (.keyErase addr data) s (acc 0x42 (fun x => { x with job := some (.keyErase a) }))))))) ∧
    (let byte (t : State) (a : Nat) : Byte := spGet flashErased t.dev.fw.flash a
     let old (a : Nat) : Byte := spGet flashErased w.flash a
     let ends (i : Bool) (P : State → Prop) : Prop := Completes (.serviceCommandDone i) s P
     (w.bufs = [] → w.job = none → ∀ b, exec (.serviceCommandDone b) s = .next s) ∧
     (∀ o b rest, w.bufs = (o, b) :: rest →
       ends false (fun t => Only [.fw] s t ∧ t.dev.fw.bufs = rest ∧ t.dev.fw.stagedBytes = w.stagedBytes + b.length ∧
         t.dev.fw.lastResult = 0 ∧ ∀ a, byte t a = if 0x4000000 + o ≤ a then b.getD (a - (0x4000000 + o)) (old a) else old a) ∧
       ends true (fun t => Only [.fw] s t ∧ t.dev.fw = { w with bufs := rest, error := true, lastResult := 0x16, irq := true })) ∧
     (∀ j, w.bufs = [] → w.job = some j → ends true (fun t => Only [.fw] s t ∧
       t.dev.fw = { w with job := none, error := true, lastResult := 0x16, irq := true })) ∧
     (w.bufs = [] → w.job = some .erase → ends false (fun t => Only [.fw] s t ∧ t.dev.fw.job = none ∧ t.dev.fw.progd = [] ∧
       t.dev.fw.stagedBytes = 0 ∧ t.dev.fw.stState = 0 ∧ t.dev.fw.stVersion = 0 ∧ t.dev.fw.lastResult = 0 ∧
       ∀ a, byte t a = if 0x4000000 ≤ a ∧ a < 0x6000000 then 0xFF else old a)) ∧
     (w.bufs = [] → w.job = some .commit →
       let r := imageVerify w stagingFlash
       ends false (fun t => Only [.fw, .kmd, .cnt] s t ∧ t.dev.fw.job = none ∧ t.dev.fw.flash = w.flash ∧
         t.dev.fw.stResult = r ∧ t.dev.fw.lastResult = r ∧ t.dev.fw.error = (r != 0) ∧ t.dev.fw.irq = true ∧
         t.dev.fw.stState = (if r = 0 then 2 else 3) ∧
         t.dev.fw.stVersion = (if r = 0 then BitVec.ofNat 32 (imgVersion w stagingFlash) else 0))) ∧
     (∀ n k, w.bufs = [] → w.job = some (.keyWrite n k) ∨ (w.job = some (.keyErase n) ∧ k = []) →
       ends false (fun t => Only [.fw, .kmd, .cnt] s t ∧ t.dev.fw = { w with job := none, lastResult := 0, irq := true } ∧
         ∀ m, spGet [] t.dev.kmd.keys m = if m = n then k else spGet [] d.kmd.keys m)))

/-- R570, R571, R575 and R576. The free values are the model's (log entry 6). -/
def Obligations.TestAccessPort : Prop :=
  ∀ (s : State),
    let d := s.dev
    let j := d.jtag
    let u := d.pwr.supply
    let known : List (Nat × Bool) := [(6, !d.fw.irq), (7, d.tim.pulseLevel), (9, !d.rst.prsntLow), (10, !d.rst.sysPinLow),
      (11, !d.rst.perstLow), (12, u.enMem), (13, u.enMain), (14, u.memRails == .on), (15, u.mainRails == .on), (16, !u.brakePin),
      (17, !u.pwrOffReq), (18, !u.tripLatched), (19, !(alertOn d))]
    let pins (t : State) : Prop := (∀ p ∈ known, t.dev.jtag.dr.getLsbD p.1 = p.2) ∧
      t.dev.jtag.dr.extractLsb' 20 2 = d.pins.boardSlot ∧ t.dev.jtag.dr.extractLsb' 22 6 = d.pins.trayId
    (d.rst.aon = true → ∀ (shift : Option (BitVec 28)) (code : Byte),
      Completes (.extest shift) s (fun t => Only [.jtag, .freeCtr] s t ∧ t.dev.jtag.ir = 0 ∧ t.dev.jtag.bsr = shift.getD j.bsr ∧
        pins t) ∧
      Completes (.samplePreload shift) s (fun t => Only [.jtag, .freeCtr] s t ∧ t.dev.jtag.ir = 2 ∧
        t.dev.jtag.bsr = shift.getD j.bsr ∧ pins t) ∧
      (code ∉ [0x00, 0x01, 0x02, 0x20] → Completes (.bypass code) s (fun t => Only [.jtag] s t ∧
        t.dev.jtag = { j with ir := code, dr := 0 })) ∧
      (code ∈ [0x00, 0x01, 0x02, 0x20] → exec (.bypass code) s = .next s) ∧
      Completes (.trstN false) s (fun t => Only [.jtag] s t ∧ t.dev.jtag = { j with ir := 1 }) ∧
      exec (.trstN true) s = .next s ∧
      Completes .idcode s (fun t => Only [.jtag] s t ∧ t.dev.jtag.ir = 1 ∧ t.dev.jtag.bsr = j.bsr ∧
        t.dev.jtag.dr.extractLsb' 28 4 = 1 ∧ t.dev.jtag.dr.extractLsb' 12 16 = 0x4B04 ∧
        t.dev.jtag.dr.extractLsb' 1 11 = Config.jep106 ∧ t.dev.jtag.dr.getLsbD 0 = true) ∧
      Completes .aonStatus s (fun t => Only [.jtag] s t ∧ t.dev.jtag.ir = 0x20 ∧ t.dev.jtag.bsr = j.bsr ∧
        (d.fuses.trayId < 64 → d.fuses.boardSlot < 4 →
          t.dev.jtag.dr.extractLsb' 0 32 = rstCause d ∧ t.dev.jtag.dr.extractLsb' 32 32 = d.rst.incarnation ∧
          t.dev.jtag.dr.getLsbD 64 = (u.memRails == .on) ∧ t.dev.jtag.dr.getLsbD 65 = (u.mainRails == .on) ∧
          t.dev.jtag.dr.getLsbD 66 = !d.rst.prsntLow ∧ t.dev.jtag.dr.getLsbD 67 = porHeld d ∧
          t.dev.jtag.dr.extractLsb' 68 2 = d.pins.boardSlot ∧ t.dev.jtag.dr.extractLsb' 70 6 = d.pins.trayId ∧
          (t.dev.jtag.dr.extractLsb' 76 2).toNat = (if d.pins.latched then d.fuses.boardSlot else 0) ∧
          (t.dev.jtag.dr.extractLsb' 78 6).toNat = (if d.pins.latched then d.fuses.trayId else 0) ∧
          t.dev.jtag.dr.getLsbD 87 = d.pins.latched))) ∧
    (d.rst.aon = false → ∀ (shift : Option (BitVec 28)) (code : Byte) (level : Bool),
      ∀ i ∈ [Instr.extest shift, .samplePreload shift, .bypass code, .trstN level, .idcode, .aonStatus], exec i s = .next s)

/-! ### The host interface (R532 to R557) -/

/-- R532, R533, R538, R543 to R546, R548 to R551, R555 and R556. -/
def Obligations.HostRings : Prop :=
  ∀ (slot : Fin 32) (ring : Fin 8) (s : State), hifUp s.dev = true →
    let d := s.dev
    let q := ringGet d slot ring
    let q' (t : State) : Ring := ringGet t.dev slot ring
    let others (t : State) : Prop := OtherRings slot ring d t.dev
    let quiet (x : BitVec 1024) : Prop := x.getLsbD 9 = false
    let sent (t : State) (idx : W32) (x : BitVec 1024) (i : CplInfo) : Prop :=
      t.dev.hif.out = d.hif.out ++ [entrySent d ring q idx x i] ∧ (q' t).prod = idx + 1
    (∀ (c : Nat) (v : W32), c < 4096 →
      let off := c * 0x1000 + 8 * ring.val
      (slotOfId d c = some slot.val →
        let legal := v ≠ q.tail ∧ (v - q.prod).toNat ≤ 2 ^ ringLog q
        let open_ := ringOn q = true ∧ scrubbing d slot = false
        let bad (bit : Nat) (t : State) : Prop := Only [.hif, .cnt] s t ∧ t.dev.hif.rings = d.hif.rings ∧
          t.dev.hif.err.getLsbD bit = true ∧ (t.dev.hif.err.extractLsb' 24 5).toNat = slot.val ∧
          (t.dev.hif.err.extractLsb' 29 3).toNat = ring.val ∧ CountersGrow [hifBase + 0x408] d t.dev
        (open_ → legal → Completes (.doorbell off 4 v) s (fun t => Only [.hif, .cnt] s t ∧ q' t = { q with tail := v } ∧
          others t ∧ CountersGrow [hifBase + 0x400] d t.dev)) ∧
        (¬open_ → Completes (.doorbell off 4 v) s (bad 2)) ∧
        (open_ → ¬legal → Completes (.doorbell off 4 v) s (bad 3))) ∧
      (slotOfId d c = none → Completes (.doorbell off 4 v) s (fun t => Only [.hif, .cnt, .freeCtr] s t ∧
        t.dev.hif.rings = d.hif.rings ∧ t.dev.hif.err.getLsbD 2 = true ∧ CountersGrow [hifBase + 0x408] d t.dev)) ∧
      (∀ off n : Nat, n ≠ 4 ∨ 2 ^ 24 ≤ off ∨ 0x40 ≤ off % 0x1000 ∨ off % 8 ≠ 0 → Completes (.doorbell off n v) s (fun t =>
        Only [.cnt] s t ∧ CountersGrow [hifBase + 0x408] d t.dev))) ∧
    (∀ r : HostRsp, fetchOut d slot ring = false → exec (.launchFetchDone slot ring r) s = .next s) ∧
    (fetchOut d slot ring = true →
      (∀ b : List Byte,
        let x : BitVec 1024 := BitVec.ofNat 1024 (leNat (b.take 128))
        Completes (.launchFetchDone slot ring (.data b)) s (fun t => (q' t).head = q.head + 1 ∧ (q' t).cfg = q.cfg ∧ others t ∧
          (q.run ≠ none → ∃ v, (q' t).fetched = q.fetched ++ [⟨q.head, x, v, 0⟩] ∧ (q' t).run = q.run ∧
            (lReserved x = true → v = some (2, 1)) ∧ (lReserved x = false → lKind x = 3 → v = none)) ∧
          (q.run = none → q.fetched = [] → lReserved x = false → lKind x = 3 →
            (q' t).fetched = [⟨q.head, x, none, d.hif.readyNext + 1⟩] ∧ Only [.hif] s t) ∧
          (q.run = none → q.fetched = [] → lReserved x = true → quiet x → (q' t).fetched = [] ∧
            sent t q.head x ⟨2, 1, 0xFF, 0, 0⟩ ∧ Only [.hif, .cnt] s t))) ∧
      (∀ r ∈ [HostRsp.error, .timeout], Completes (.launchFetchDone slot ring r) s (fun t =>
        Only [.hif, .cnt, .freeCtr] s t ∧ (q' t).head = q.head + 1 ∧ others t ∧ t.dev.hif.err.getLsbD 6 = true ∧
        cntGet t.dev (hifBase + 0x430) = bumped (cntGet d (hifBase + 0x430)) ∧
        (q.run ≠ none → ∃ x, (q' t).fetched = q.fetched ++ [⟨q.head, x, some (8, 1), 0⟩])))) ∧
    (∀ kind r, mayStart d slot ring kind = none →
      (kind = 0 → exec (.kernelStart slot ring) s = .next s) ∧ (kind = 3 → exec (.marker slot ring) s = .next s) ∧
      (kind = 1 → dmaRuns d slot ring 1 = none → exec (.dmaToModule slot ring r) s = .next s) ∧
      (kind = 2 → dmaRuns d slot ring 2 = none → exec (.dmaToHost slot ring) s = .next s)) ∧
    (∀ x, mayStart d slot ring 0 = some x →
      let set := lSet x.desc
      let lands := set.filterMap (physOf d)
      (setRuns d set = true → lands.all (landingIdle d) = true → reservedBefore d x.ready set = false →
        Completes (.kernelStart slot ring) s (fun t => (q' t).fetched = q.fetched.drop 1 ∧
          (∃ k, (q' t).run = some k ∧ k.idx = x.idx ∧ k.desc = x.desc ∧ k.landings = lands ∧ k.forced = none) ∧
          cntGet t.dev (hifBase + 0x410) = bumped (cntGet d (hifBase + 0x410)) ∧
          (∀ i l, lands[i]? = some l →
            let y := lndGet t.dev l
            y.phase = .running ∧ y.pipe.pc = lEntry x.desc ∧ y.pipe.cyc = 0 ∧ y.trk = [] ∧ y.kern.rank = i ∧
            y.kern.nland = lands.length ∧ y.kern.ctx = ctxWord d slot ∧ regS y.regs 1 = BitVec.ofNat 64 (lAddr1 x.desc) ∧
            regS y.regs 2 = BitVec.ofNat 64 i ∧ regS y.regs 3 = BitVec.ofNat 64 lands.length) ∧
          (∀ l, l ∉ lands → lndGet t.dev l = lndGet d l))) ∧
      (setRuns d set = true → (lands.all (landingIdle d) = false ∨ reservedBefore d x.ready set = true) →
        exec (.kernelStart slot ring) s = .next s) ∧
      (setRuns d set = false → q.fetched = [x] → quiet x.desc → Completes (.kernelStart slot ring) s (fun t =>
        Only [.hif, .cnt] s t ∧ others t ∧ (q' t).fetched = [] ∧ (q' t).run = none ∧ sent t x.idx x.desc ⟨3, 0, 0xFF, 0, 0⟩ ∧
        CountersGrow [hifBase + 0x420] d t.dev))) ∧
    (∀ x, mayStart d slot ring 3 = some x → q.fetched = [x] → quiet x.desc → Completes (.marker slot ring) s (fun t =>
      Only [.hif, .cnt] s t ∧ others t ∧ (q' t).fetched = [] ∧ (q' t).run = none ∧ sent t x.idx x.desc ⟨0, 0, 0xFF, 0, 0⟩ ∧
      CountersGrow [hifBase + 0x420] d t.dev)) ∧
    (∀ x b, mayStart d slot ring 1 = some x → 0 < lLen x.desc → Completes (.dmaToModule slot ring (.data b)) s (fun t =>
      (q' t).fetched = q.fetched.drop 1 ∧ others t ∧ ∃ k, (q' t).run = some k ∧ k.idx = x.idx ∧ k.desc = x.desc ∧
        k.moved = min b.length (lLen x.desc))) ∧
    (∀ k, dmaRuns d slot ring 1 = some k →
      (∀ b, Completes (.dmaToModule slot ring (.data b)) s (fun t => Only [.mem, .memc, .hif, .cnt] s t ∧ others t ∧
        (q' t).run = some { k with moved := k.moved + min b.length (lLen k.desc - k.moved) } ∧
        ∀ pa n, (xlateRange s slot (lAddr1 k.desc) (lLen k.desc) true).1 = .ok (pa, n) → t.mem =
          (writeBytes (pa + k.moved) ((b.take (lLen k.desc - k.moved)).map some) false (some slot) s).mem)) ∧
      (∀ i ∈ [Instr.dmaToModule slot ring .error, .dmaToModule slot ring .timeout, .hostCompletionTimeout slot ring],
        Completes i s (fun t => Only [.mem, .memc, .hif, .cnt] s t ∧ others t ∧
          (q' t).run = some { k with failed := true }))) ∧
    (∀ k, dmaRuns d slot ring 2 = some k → Completes (.dmaToHost slot ring) s (fun t => Only [.memc, .hif, .cnt] s t ∧ others t ∧
      ∃ p, (q' t).run = some { k with moved := lLen k.desc, poison := p })) ∧
    (∀ x, mayStart d slot ring 2 = some x → 0 < lLen x.desc → Completes (.dmaToHost slot ring) s (fun t =>
      Only [.memc, .hif, .cnt] s t ∧ others t ∧ (q' t).fetched = q.fetched.drop 1 ∧
      ∃ k, (q' t).run = some k ∧ k.idx = x.idx ∧ k.desc = x.desc ∧ k.moved = lLen x.desc)) ∧
    (q.run = none → exec (.dmaComplete slot ring) s = .next s) ∧
    (∀ k, q.run = some k →
      let ended := (lKind k.desc = 1 ∨ lKind k.desc = 2) ∧ (lLen k.desc ≤ k.moved ∨ k.failed = true ∨ k.forced ≠ none)
      (¬ended → exec (.dmaComplete slot ring) s = .next s) ∧
      (ended → q.fetched = [] → k.forced = none → k.noEntry = false → quiet k.desc → Completes (.dmaComplete slot ring) s (fun t =>
        Only [.hif, .cnt] s t ∧ others t ∧ (q' t).run = none ∧
        sent t k.idx k.desc ⟨(runStatus k).1, (runStatus k).2, 0xFF, 0, 0⟩ ∧
        CountersGrow [hifBase + 0x418, hifBase + 0x420] d t.dev))) ∧
    (dmaRuns d slot ring 1 = none →
      (fetchOut d slot ring = false → exec (.hostCompletionTimeout slot ring) s = .next s) ∧
      (fetchOut d slot ring = true → Completes (.hostCompletionTimeout slot ring) s (fun t => Only [.hif, .cnt, .freeCtr] s t ∧
        others t ∧ (q' t).head = q.head + 1 ∧ t.dev.hif.err.getLsbD 6 = true))) ∧
    (∀ (up : Bool) (speed : BitVec 4) (width : BitVec 5) (flit enter : Bool),
      let fits := speed ∈ [4, 5, 6] ∧ width ∈ [1, 2, 4, 8, 16] ∧ flit = (speed == 6)
      (up = false → Completes (.pcieLinkChange up speed width flit) s (fun t => Only [.hif] s t ∧
        t.dev.hif = { d.hif with linkUp := false, speed := 0, width := 0, flit := false })) ∧
      (up = true → fits → Completes (.pcieLinkChange up speed width flit) s (fun t => Only [.hif] s t ∧
        t.dev.hif = { d.hif with linkUp := true, speed := speed.toNat, width := width.toNat, flit := flit })) ∧
      (up = true → ¬fits → exec (.pcieLinkChange up speed width flit) s = .next s) ∧
      Completes (.d3hot enter) s (fun t => Only [.hif] s t ∧ t.dev.hif = { d.hif with d3hot := enter }))

/-- R11 to R15, R56, R58, R325, R330, R358, R360, R401, R416, R458, R535 to R537, R542 and R555. -/
def Obligations.HostRegisters : Prop :=
  ∀ (s : State), hifUp s.dev = true →
    let d := s.dev
    let answered (data : List Byte) (t : State) : Prop := t.dev.hif.out = d.hif.out ++ [.completion data false]
    (∀ (off : Nat) (wide : Bool) (v : W64),
      let lo := v.setWidth 32
      (bar0Aligned off wide = false → Completes (.registerWrite off wide v) s (TurnedAway 5 s)) ∧
      Completes (.registerWrite (hifBase + 0x4) false v) s (fun t => Only [.hif] s t ∧
        t.dev.hif = { d.hif with err := d.hif.err &&& ~~~(lo &&& 0x7F) }) ∧
      Completes (.registerWrite (timBase + 0xC) false v) s (fun t => Only [.tim] s t ∧
        t.dev.tim = { d.tim with evt := d.tim.evt &&& ~~~(lo.setWidth 8) }) ∧
      Completes (.registerWrite rstBase false v) s (fun t => Only [.rst] s t ∧
        t.dev.rst = { d.rst with cause := d.rst.cause &&& ~~~(lo.setWidth 14) }) ∧
      Completes (.registerWrite (pwrBase + 0x4) false v) s (fun t => Only [.pwr] s t ∧
        t.dev.pwr.lim = { d.pwr.lim with evt := d.pwr.lim.evt &&& ~~~(lo.setWidth 10) }) ∧
      (isCounter off = true → off % 8 = 0 → exec (.registerWrite off true v) s = .next s) ∧
      (∀ k : Fin 16,
        let at_ := hifBase + 0x100 + 8 * k.val
        ((v.extractLsb' 32 16).toNat ≤ 0x010F → Completes (.registerWrite at_ true v) s (fun t => Only [.hif] s t ∧
          ∀ m, spGet 0 t.dev.hif.win m = if m = k.val then v &&& 0x8000FFFF00000000 else spGet 0 d.hif.win m)) ∧
        (0x010F < (v.extractLsb' 32 16).toNat → Completes (.registerWrite at_ true v) s (TurnedAway 0 s))) ∧
      (bar0Aligned off wide = false → Completes (.lowWordRead off wide) s (fun t => Only [.hif] s t ∧
        t.dev.hif.err.getLsbD 5 = true)) ∧
      (∀ x, reg64 d off = some x → off % 8 = 0 →
        Completes (.lowWordRead off true) s (fun t => Only [.hif] s t ∧ answered (leBytes 8 x.toNat) t) ∧
        Completes (.lowWordRead off false) s (fun t => Only [.hif] s t ∧ answered (leBytes 4 (x.extractLsb' 0 32).toNat) t ∧
          spGet 0 t.dev.hif.latch off = x.extractLsb' 32 32) ∧
        Completes (.lowWordRead (off + 4) false) s (fun t => Only [.hif] s t ∧
          answered (leBytes 4 (spGet 0 d.hif.latch off).toNat) t)) ∧
      (reg64 d off = none → off % 8 = 0 → Completes (.lowWordRead off false) s (fun t => Only [.hif] s t ∧
        answered (leBytes 4 ((reg32 d off).getD 0).toNat) t))) ∧
    (∀ (off size : Nat) (isRead : Bool),
      let legal := (size = 4 ∨ size = 8) ∧ off % size = 0
      (¬legal → Completes (.bar0BadAccess off size isRead) s (fun t => Only [.hif] s t ∧ t.dev.hif.err.getLsbD 5 = true)) ∧
      (legal → exec (.bar0BadAccess off size isRead) s = .next s)) ∧
    (∀ (slot : Fin 32) (ring : Fin 8) (v : W32),
      let q := ringGet d slot ring
      let w : W32 := v &&& 0x87FF000F
      let on := v.getLsbD 31
      let state := (ringOn q = true ∧ w.extractLsb' 0 31 ≠ q.cfg.extractLsb' 0 31) ∨
        (on = true ∧ ringOn q = false ∧ ctxValid d slot = false) ∨ (ringOn q = true ∧ on = false ∧ q.tail ≠ q.prod)
      let log := (v.extractLsb' 0 4).toNat
      let range := log < 4 ∨ 12 < log ∨ (v.extractLsb' 16 11).toNat < 16
      (state → Completes (.lqCfgWrite slot ring v) s (TurnedAway 1 s)) ∧
      (¬state → range → Completes (.lqCfgWrite slot ring v) s (TurnedAway 0 s)) ∧
      (¬state → ¬range → Completes (.lqCfgWrite slot ring v) s (fun t => Only [.hif] s t ∧ OtherRings slot ring d t.dev ∧
        ringGet t.dev slot ring = (if on = true ∧ ringOn q = false then { q with cfg := w, tail := 0, head := 0, prod := 0 }
          else { q with cfg := w })))) ∧
    (∀ (slot : Fin 32) (word : Fin 4) (v : W64),
      let x := ctxWordPut (ctxCfg d slot) word v
      let id := (x.extractLsb' 238 12).toNat
      let ready := ctxReusable d id (x.extractLsb' 234 4).toNat
      let base := (x.extractLsb' 222 12).toNat
      let count := (x.extractLsb' 209 13).toNat
      let cfgs (t : State) : Prop := ∀ n, ctxCfg t.dev n = if n = slot.val then x else ctxCfg d n
      (isLive d = false ∨ ctxValid d slot = true → Completes (.ctxCfgWrite slot word v) s (TurnedAway 1 s)) ∧
      (isLive d = true → ctxValid d slot = false →
        (x.getLsbD 255 = false → Completes (.ctxCfgWrite slot word v) s (fun t => Only [.nic] s t ∧ cfgs t)) ∧
        (x.getLsbD 255 = true → ready = false → Completes (.ctxCfgWrite slot word v) s (TurnedAway 1 s)) ∧
        (x.getLsbD 255 = true → ready = true → ctxFits x = false ∨ ctxClash d slot x = true →
          Completes (.ctxCfgWrite slot word v) s (TurnedAway 0 s)) ∧
        (x.getLsbD 255 = true → ready = true → ctxFits x = true → ctxClash d slot x = false → Completes (.ctxCfgWrite slot word v) s (fun t =>
          Only [.mem, .memc, .nic, .cnt] s t ∧ cfgs t ∧ spGet 0 t.dev.nic.cqProd slot = 0 ∧
          t.dev.nic.repro.getLsbD slot = (x.getLsbD 254 || objGet d 0x604001 == 1) ∧
          ∀ c, ctrGet t.dev c = if base ≤ c ∧ c < base + count then ⟨0, false⟩ else ctrGet d c)))) ∧
    (∀ (c : BitVec 12) (v : W64),
      (ctrOwner d c.toNat = none → Completes (.ctrWrite c v) s (TurnedAway 1 s)) ∧
      (∀ n, ctrOwner d c.toNat = some n →
        (kernelRuns d n = true → Completes (.ctrWrite c v) s (TurnedAway 1 s)) ∧
        (kernelRuns d n = false → untriggered d c.toNat = true → Completes (.ctrWrite c v) s (fun t => Only [.nic] s t ∧
          ∀ m, ctrGet t.dev m = if m = c.toNat then ⟨v.setWidth 48, v.getLsbD 63⟩ else ctrGet d m)))) ∧
    (∀ (off len : Nat) (data : List Byte) (en : List Bool) (ep : Bool),
      let pa := ((spGet 0 d.hif.win (off / 2 ^ 32)).extractLsb' 32 16).toNat * 2 ^ 32 + off % 2 ^ 32
      let bad (t : State) : Prop := Only [.hif, .cnt] s t ∧ t.dev.hif.err.getLsbD 4 = true ∧
        CountersGrow [hifBase + 0x438] d t.dev
      (bar2Reaches d off data.length = false → Completes (.bar2Write off data en ep) s bad) ∧
      (bar2Reaches d off data.length = true → Completes (.bar2Write off data en ep) s (fun t => Only [.mem, .memc, .cnt] s t ∧
        t.mem = (writeBytes pa ((data.zip en).map (fun p => if p.2 then some p.1 else none)) ep none s).mem)) ∧
      (bar2Reaches d off len = false → Completes (.bar2Read off len) s bad) ∧
      (bar2Reaches d off len = true → 0 < len → pa % 64 + len ≤ 64 → Completes (.bar2Read off len) s (fun t =>
        Only [.memc, .hif, .cnt] s t ∧ ((granAt s pa).1 = .ok → answered (peekBytes s pa len) t) ∧
        ((granAt s pa).1 ≠ .ok → ∃ b, t.dev.hif.out = d.hif.out ++ [.completion b true]))))
end

