-- ==== Sys2Proof/Laws/Sparse.lean ====
section
/-! SUPPORT. Reads after writes of sparse maps and sets of numbers, and their canonical form. -/

namespace Sys2Proof.Machine

variable {α : Type}

/-! ### Reading back -/

@[simp] theorem spGet_nil (d : α) (k : Nat) : spGet d [] k = d := rfl

theorem spGet_spErase (d : α) (p : Nat → Bool) (m : Sparse α) (k : Nat) :
    spGet d (spErase p m) k = if p k then d else spGet d m k := by
  induction m with
  | nil => simp [spErase]
  | cons e t ih =>
    obtain ⟨a, v⟩ := e
    simp only [spErase] at ih ⊢
    by_cases h : p a
    · rw [List.filter_cons_of_neg (by simp [h]), ih]
      by_cases hk : k = a
      · subst hk; simp [h]
      · simp [spGet, hk]
    · rw [List.filter_cons_of_pos (by simp [h])]
      by_cases hk : k = a
      · subst hk; simp [spGet, h]
      · simp [spGet, hk, ih]

theorem spGet_spIns (d : α) (k : Nat) (v : α) (m : Sparse α) (j : Nat) :
    spGet d (spIns k v m) j = if j = k then v else spGet d m j := by
  induction m with
  | nil => simp [spIns, spGet]
  | cons e t ih =>
    obtain ⟨a, w⟩ := e
    simp only [spIns]
    split
    · simp [spGet]
    · split
      · subst_vars
        by_cases hj : j = a <;> simp [spGet, hj]
      · by_cases hj : j = a
        · subst hj
          have : j ≠ k := fun h => by omega
          simp [spGet, this]
        · simp [spGet, hj, ih]

/-- A read after a write gives the value written at its key and leaves every other key alone. -/
theorem spGet_spPut [DecidableEq α] (d : α) (k : Nat) (v : α) (m : Sparse α) (j : Nat) :
    spGet d (spPut d k v m) j = if j = k then v else spGet d m j := by
  unfold spPut
  split
  · subst_vars
    rw [spGet_spErase]
    by_cases h : j = k <;> simp [h]
  · exact spGet_spIns d k v m j

@[simp] theorem spGet_spPut_same [DecidableEq α] (d : α) (k : Nat) (v : α) (m : Sparse α) :
    spGet d (spPut d k v m) k = v := by simp [spGet_spPut]

theorem spGet_spPut_ne [DecidableEq α] (d : α) {k j : Nat} (v : α) (m : Sparse α) (h : j ≠ k) :
    spGet d (spPut d k v m) j = spGet d m j := by simp [spGet_spPut, h]

theorem spGet_spMod [DecidableEq α] (d : α) (k : Nat) (f : α → α) (m : Sparse α) (j : Nat) :
    spGet d (spMod d k f m) j = if j = k then f (spGet d m k) else spGet d m j := by
  simp [spMod, spGet_spPut]

@[simp] theorem spGet_spMod_same [DecidableEq α] (d : α) (k : Nat) (f : α → α) (m : Sparse α) :
    spGet d (spMod d k f m) k = f (spGet d m k) := by simp [spGet_spMod]

/-! ### Canonical form -/

theorem spSorted_mono [DecidableEq α] {d : α} {m : Sparse α} {a b : Nat} (h : spSorted d b m = true) (hab : a ≤ b) :
    spSorted d a m = true := by
  cases m with
  | nil => rfl
  | cons e t =>
    obtain ⟨k, v⟩ := e
    simp only [spSorted, Bool.and_eq_true, decide_eq_true_eq] at h ⊢
    exact ⟨⟨by omega, h.1.2⟩, h.2⟩

theorem spSorted_spErase [DecidableEq α] {d : α} (p : Nat → Bool) :
    ∀ {m : Sparse α} {b : Nat}, spSorted d b m = true → spSorted d b (spErase p m) = true
  | [], _, _ => rfl
  | (k, v) :: t, b, h => by
    simp only [spSorted, Bool.and_eq_true, decide_eq_true_eq] at h
    have ih := spSorted_spErase p (m := t) h.2
    simp only [spErase, List.filter_cons] at ih ⊢
    split
    · simp only [spSorted, Bool.and_eq_true, decide_eq_true_eq]
      exact ⟨h.1, ih⟩
    · exact spSorted_mono ih (by omega)

theorem spSorted_spIns [DecidableEq α] {d : α} {k : Nat} {v : α} (hv : v ≠ d) :
    ∀ {m : Sparse α} {b : Nat}, spSorted d b m = true → b ≤ k → spSorted d b (spIns k v m) = true
  | [], b, _, hb => by simp [spIns, spSorted, hb, hv]
  | (a, w) :: t, b, h, hb => by
    simp only [spSorted, Bool.and_eq_true, decide_eq_true_eq] at h
    simp only [spIns]
    split
    · simp only [spSorted, Bool.and_eq_true, decide_eq_true_eq]
      exact ⟨⟨hb, by simp [hv]⟩, ⟨by omega, h.1.2⟩, h.2⟩
    · split
      · subst_vars
        simp only [spSorted, Bool.and_eq_true, decide_eq_true_eq]
        exact ⟨⟨hb, by simp [hv]⟩, h.2⟩
      · simp only [spSorted, Bool.and_eq_true, decide_eq_true_eq]
        exact ⟨h.1, spSorted_spIns hv h.2 (by omega)⟩

theorem spWf_nil [DecidableEq α] (d : α) : spWf d ([] : Sparse α) = true := rfl

theorem spWf_spErase [DecidableEq α] {d : α} (p : Nat → Bool) {m : Sparse α} (h : spWf d m = true) :
    spWf d (spErase p m) = true := spSorted_spErase p h

/-- A write keeps the canonical form. -/
theorem spWf_spPut [DecidableEq α] {d : α} (k : Nat) (v : α) {m : Sparse α} (h : spWf d m = true) :
    spWf d (spPut d k v m) = true := by
  unfold spPut
  split
  · exact spWf_spErase _ h
  · rename_i hv
    exact spSorted_spIns hv h (Nat.zero_le k)

theorem spWf_spMod [DecidableEq α] {d : α} (k : Nat) (f : α → α) {m : Sparse α} (h : spWf d m = true) :
    spWf d (spMod d k f m) = true := spWf_spPut k _ h

/-- Below its bound a canonical map reads the default. -/
theorem spSorted_below [DecidableEq α] {d : α} : ∀ {m : Sparse α} {b k : Nat}, spSorted d b m = true → k < b →
    spGet d m k = d
  | [], _, _, _, _ => rfl
  | (a, v) :: t, b, k, h, hk => by
    simp only [spSorted, Bool.and_eq_true, decide_eq_true_eq] at h
    have : k ≠ a := by omega
    simp only [spGet, this, if_false]
    exact spSorted_below h.2 (by omega)

/-! ### Sets of numbers -/

theorem mem_nsInsert (k a : Nat) (l : List Nat) : a ∈ nsInsert k l ↔ a = k ∨ a ∈ l := by
  induction l with
  | nil => simp [nsInsert]
  | cons b t ih =>
    simp only [nsInsert]
    split
    · simp
    · split
      · subst_vars; simp
      · simp only [List.mem_cons, ih]; exact or_left_comm

theorem mem_nsErase (k a : Nat) (l : List Nat) : a ∈ nsErase k l ↔ a ∈ l ∧ a ≠ k := by simp [nsErase]

theorem nsSorted_mono {l : List Nat} {a b : Nat} (h : nsSorted b l = true) (hab : a ≤ b) : nsSorted a l = true := by
  cases l with
  | nil => rfl
  | cons x t =>
    simp only [nsSorted, Bool.and_eq_true, decide_eq_true_eq] at h ⊢
    exact ⟨by omega, h.2⟩

theorem nsSorted_filter (p : Nat → Bool) : ∀ {l : List Nat} {b : Nat}, nsSorted b l = true →
    nsSorted b (l.filter p) = true
  | [], _, _ => rfl
  | x :: t, b, h => by
    simp only [nsSorted, Bool.and_eq_true, decide_eq_true_eq] at h
    have ih := nsSorted_filter p (l := t) h.2
    rw [List.filter_cons]
    split
    · simp only [nsSorted, Bool.and_eq_true, decide_eq_true_eq]
      exact ⟨h.1, ih⟩
    · exact nsSorted_mono ih (by omega)

theorem nsSorted_nsErase (k : Nat) {l : List Nat} {b : Nat} (h : nsSorted b l = true) :
    nsSorted b (nsErase k l) = true := nsSorted_filter _ h

theorem nsSorted_nsInsert {k : Nat} : ∀ {l : List Nat} {b : Nat}, nsSorted b l = true → b ≤ k →
    nsSorted b (nsInsert k l) = true
  | [], b, _, hb => by simp [nsInsert, nsSorted, hb]
  | x :: t, b, h, hb => by
    simp only [nsSorted, Bool.and_eq_true, decide_eq_true_eq] at h
    simp only [nsInsert]
    split
    · simp only [nsSorted, Bool.and_eq_true, decide_eq_true_eq]
      exact ⟨hb, by omega, h.2⟩
    · split
      · subst_vars
        simp only [nsSorted, Bool.and_eq_true, decide_eq_true_eq]
        exact h
      · simp only [nsSorted, Bool.and_eq_true, decide_eq_true_eq]
        exact ⟨h.1, nsSorted_nsInsert h.2 (by omega)⟩

end Sys2Proof.Machine
end

