-- ==== Sys2Proof/Laws/Memory.lean ====
section
/-! SUPPORT. Memory: reads after writes, and every memory operation keeps the canonical form. -/

namespace Sys2Proof.Machine

/-! ### A property kept by a fold -/

theorem foldl_keeps {α β : Type} {P : β → Prop} {f : β → α → β} (h : ∀ b a, P b → P (f b a)) :
    ∀ (l : List α) (b : β), P b → P (l.foldl f b)
  | [], _, hb => hb
  | a :: t, b, hb => foldl_keeps h t (f b a) (h b a hb)

theorem foldl_eq {α β γ : Type} {g : β → γ} {f : β → α → β} (h : ∀ b a, g (f b a) = g b) :
    ∀ (l : List α) (b : β), g (l.foldl f b) = g b
  | [], _ => rfl
  | a :: t, b => by rw [List.foldl_cons, foldl_eq h t, h]

/-! ### Bytes -/

theorem Memory.byte_putByte (m : Memory) (k : Nat) (b : Byte) (j : Nat) :
    (m.putByte k b).byte j = if j = k then b else m.byte j := spGet_spPut 0 k b m.bytes j

@[simp] theorem Memory.putByte_poison (m : Memory) (k : Nat) (b : Byte) : (m.putByte k b).poison = m.poison := rfl
@[simp] theorem Memory.putByte_warm (m : Memory) (k : Nat) (b : Byte) : (m.putByte k b).warm = m.warm := rfl

/-- A write of consecutive bytes: each key reads the byte written there, if one is. -/
theorem Memory.byte_putBytes (l : List (Option Byte)) : ∀ (m : Memory) (k j : Nat),
    (m.putBytes k l).byte j = if k ≤ j then ((l[j - k]?).join).getD (m.byte j) else m.byte j := by
  induction l with
  | nil => intro m k j; simp [Memory.putBytes]
  | cons a t ih =>
    intro m k j
    cases a with
    | none =>
      simp only [Memory.putBytes, ih]
      by_cases h1 : k ≤ j
      · by_cases h2 : k = j
        · subst h2
          have : ¬ k + 1 ≤ k := by omega
          simp [this]
        · have h3 : k + 1 ≤ j := by omega
          have h4 : j - k = (j - (k + 1)) + 1 := by omega
          rw [if_pos h3, if_pos h1, h4, List.getElem?_cons_succ]
      · have h3 : ¬ k + 1 ≤ j := by omega
        rw [if_neg h3, if_neg h1]
    | some b =>
      simp only [Memory.putBytes, ih, Memory.byte_putByte]
      by_cases h1 : k ≤ j
      · by_cases h2 : k = j
        · subst h2
          have : ¬ k + 1 ≤ k := by omega
          simp [this]
        · have h3 : k + 1 ≤ j := by omega
          have h4 : j - k = (j - (k + 1)) + 1 := by omega
          have h5 : j ≠ k := fun h => h2 h.symm
          rw [if_pos h3, if_pos h1, h4, List.getElem?_cons_succ, if_neg h5]
      · have h3 : ¬ k + 1 ≤ j := by omega
        have h5 : j ≠ k := by omega
        rw [if_neg h3, if_neg h1, if_neg h5]

@[simp] theorem Memory.putBytes_poison (l : List (Option Byte)) : ∀ (m : Memory) (k : Nat),
    (m.putBytes k l).poison = m.poison := by
  induction l with
  | nil => intro m k; rfl
  | cons a t ih => intro m k; cases a <;> simp [Memory.putBytes, ih]

@[simp] theorem Memory.putBytes_warm (l : List (Option Byte)) : ∀ (m : Memory) (k : Nat),
    (m.putBytes k l).warm = m.warm := by
  induction l with
  | nil => intro m k; rfl
  | cons a t ih => intro m k; cases a <;> simp [Memory.putBytes, ih]

/-! ### The canonical form -/

theorem Memory.wf_iff (m : Memory) :
    m.wf = true ↔ spWf 0 m.bytes = true ∧ nsSorted 0 m.poison = true ∧ nsSorted 0 m.warm = true := by
  simp [Memory.wf, and_assoc]

theorem Memory.reset_wf : Memory.reset.wf = true := rfl

theorem Memory.putByte_wf {m : Memory} (k : Nat) (b : Byte) (h : m.wf = true) : (m.putByte k b).wf = true := by
  rw [Memory.wf_iff] at h ⊢
  exact ⟨spWf_spPut k b h.1, h.2⟩

theorem Memory.putBytes_wf (l : List (Option Byte)) : ∀ {m : Memory} (k : Nat), m.wf = true →
    (m.putBytes k l).wf = true := by
  induction l with
  | nil => intro m k h; exact h
  | cons a t ih =>
    intro m k h
    cases a with
    | none => exact ih (k + 1) h
    | some b => exact ih (k + 1) (Memory.putByte_wf k b h)

theorem Memory.setPoison_wf {m : Memory} (g : Nat) (v : Bool) (h : m.wf = true) : (m.setPoison g v).wf = true := by
  rw [Memory.wf_iff] at h ⊢
  refine ⟨h.1, ?_, h.2.2⟩
  cases v
  · exact nsSorted_nsErase g h.2.1
  · exact nsSorted_nsInsert h.2.1 (Nat.zero_le g)

theorem Memory.setWarm_wf {m : Memory} (g : Nat) (h : m.wf = true) : (m.setWarm g).wf = true := by
  rw [Memory.wf_iff] at h ⊢
  exact ⟨h.1, h.2.1, nsSorted_nsInsert h.2.2 (Nat.zero_le g)⟩

theorem Memory.clear_wf {m : Memory} (lo hi : Nat) (h : m.wf = true) : (m.clear lo hi).wf = true := by
  rw [Memory.wf_iff] at h ⊢
  exact ⟨spWf_spErase (fun k => decide (lo ≤ k ∧ k < hi)) h.1, nsSorted_filter _ h.2.1, nsSorted_filter _ h.2.2⟩

theorem Memory.writeGran_wf {m : Memory} (g : Nat) (bs : List (Option Byte)) (p st : Bool) (h : m.wf = true) :
    (m.writeGran g bs p st).wf = true := by
  have h0 := Memory.putBytes_wf bs (64 * g) h
  have h1 : (if p then (m.putBytes (64 * g) bs).setPoison g true
      else if decide (bs.length = 64) && bs.all Option.isSome then (m.putBytes (64 * g) bs).setPoison g false
      else m.putBytes (64 * g) bs).wf = true := by
    split
    · exact Memory.setPoison_wf g true h0
    · split
      · exact Memory.setPoison_wf g false h0
      · exact h0
  unfold Memory.writeGran
  cases st
  · exact h1
  · exact Memory.setWarm_wf g h1

/-! ### Accesses -/

theorem writeGranAt_wf (pa : Nat) (bs : List (Option Byte)) (p : Bool) (slot : Option Nat) {s : State}
    (h : s.mem.wf = true) : (writeGranAt pa bs p slot s).mem.wf = true := by
  unfold writeGranAt
  split
  · exact h
  · dsimp only
    split
    · exact h
    · exact Memory.writeGran_wf _ _ _ _ h

theorem writeBytes_wf (pa : Nat) (bytes : List (Option Byte)) (p : Bool) (slot : Option Nat) {s : State}
    (h : s.mem.wf = true) : (writeBytes pa bytes p slot s).mem.wf = true := by
  unfold writeBytes
  refine foldl_keeps (P := fun s : State => s.mem.wf = true) ?_ _ s h
  intro b i hb
  dsimp only
  split
  · exact writeGranAt_wf _ _ _ _ hb
  · exact hb

theorem poisonRange_wf (pa n : Nat) (slot : Option Nat) {s : State} (h : s.mem.wf = true) :
    (poisonRange pa n slot s).mem.wf = true := by
  unfold poisonRange
  exact foldl_keeps (P := fun s : State => s.mem.wf = true) (fun b i hb => writeGranAt_wf _ _ _ _ hb) _ s h

theorem coldStore_wf (n : Nat) {s : State} (h : s.mem.wf = true) : (coldStore n s).mem.wf = true :=
  Memory.clear_wf _ _ h

theorem coldAll_wf {s : State} (h : s.mem.wf = true) : (coldAll s).mem.wf = true := Memory.clear_wf _ _ h

theorem uncorrectable_wf (pa : Nat) {s : State} (h : s.mem.wf = true) : (uncorrectable pa s).mem.wf = true := by
  unfold uncorrectable
  split
  · exact h
  · exact Memory.setPoison_wf _ true h

/-! ### Reads and translations leave memory alone -/

@[simp] theorem readGran_mem (s : State) (pa : Nat) : (readGran s pa).2.2.mem = s.mem := rfl

@[simp] theorem readRange_mem (s : State) (pa n : Nat) : (readRange s pa n).2.mem = s.mem := by
  unfold readRange
  dsimp only
  have := foldl_eq (g := fun a : RangeRead × State => a.2.mem)
    (f := fun (acc : RangeRead × State) i =>
      let a := 64 * (pa / 64 + i)
      let (st, b, s) := readGran acc.2 a
      let bad := match acc.1.bad, st with
        | some x, _ => some x
        | none, .ok => none
        | none, x => some (a, x)
      (⟨acc.1.bytes ++ b, bad, acc.1.poison || decide (st ≠ .ok)⟩, s))
    (fun b a => rfl) (List.range (granCount pa n)) (⟨[], none, false⟩, s)
  exact this

@[simp] theorem walk_mem : ∀ (n table va : Nat) (s : State), (walk n table va s).2.mem = s.mem
  | 0, _, _, _ => rfl
  | n + 1, table, va, s => by
    unfold walk
    dsimp only
    split
    · exact readRange_mem s _ _
    · split
      · exact readRange_mem s _ _
      · exact readRange_mem s _ _
      · rw [walk_mem n, readRange_mem]

@[simp] theorem leafFor_mem (s : State) (slot va : Nat) : (leafFor s slot va).2.mem = s.mem := by
  unfold leafFor
  split
  · rfl
  · split
    · rfl
    · dsimp only
      split
      · rfl
      · split
        · rw [walk_mem]
        · dsimp only; rw [walk_mem]

@[simp] theorem xlate1_mem (s : State) (slot va : Nat) (wr : Bool) : (xlate1 s slot va wr).2.mem = s.mem := by
  unfold xlate1
  dsimp only
  split
  · exact leafFor_mem s slot va
  · repeat' split
    all_goals exact leafFor_mem s slot va

@[simp] theorem xlateRest_mem : ∀ (n : Nat) (s : State) (slot va pa len : Nat) (wr : Bool) (c : Nat),
    (xlateRest n s slot va pa len wr c).2.mem = s.mem
  | 0, _, _, _, _, _, _, _ => rfl
  | n + 1, s, slot, va, pa, len, wr, c => by
    unfold xlateRest
    split
    · rfl
    · dsimp only
      split
      · exact xlate1_mem s slot va wr
      · split
        · exact xlate1_mem s slot va wr
        · rw [xlateRest_mem n, xlate1_mem]

@[simp] theorem xlateRange_mem (s : State) (slot va len : Nat) (wr : Bool) :
    (xlateRange s slot va len wr).2.mem = s.mem := by
  unfold xlateRange
  dsimp only
  split
  · exact xlate1_mem s slot va wr
  · split
    · rw [xlateRest_mem, xlate1_mem]
    · repeat' split
      all_goals rw [xlateRest_mem, xlate1_mem]

end Sys2Proof.Machine
end

