-- ==== Sys2Proof/Laws/State.lean ====
section
/-! SUPPORT. The frame of every named operation on the state, field by field, and what its reads give back. -/

namespace Sys2Proof.Machine

/-! ### Fields that an operation leaves alone -/

@[simp] theorem cntAdd_lnd (off n : Nat) (d : Dev) : (cntAdd off n d).lnd = d.lnd := rfl
@[simp] theorem cntAdd_memc (off n : Nat) (d : Dev) : (cntAdd off n d).memc = d.memc := rfl
@[simp] theorem cntAdd_rtr (off n : Nat) (d : Dev) : (cntAdd off n d).rtr = d.rtr := rfl
@[simp] theorem cntAdd_nic (off n : Nat) (d : Dev) : (cntAdd off n d).nic = d.nic := rfl
@[simp] theorem cntAdd_tim (off n : Nat) (d : Dev) : (cntAdd off n d).tim = d.tim := rfl
@[simp] theorem cntAdd_ports (off n : Nat) (d : Dev) : (cntAdd off n d).ports = d.ports := rfl
@[simp] theorem cntAdd_pwr (off n : Nat) (d : Dev) : (cntAdd off n d).pwr = d.pwr := rfl
@[simp] theorem cntAdd_rst (off n : Nat) (d : Dev) : (cntAdd off n d).rst = d.rst := rfl
@[simp] theorem cntAdd_health (off n : Nat) (d : Dev) : (cntAdd off n d).health = d.health := rfl
@[simp] theorem cntAdd_fuses (off n : Nat) (d : Dev) : (cntAdd off n d).fuses = d.fuses := rfl
@[simp] theorem cntAdd_kmd (off n : Nat) (d : Dev) : (cntAdd off n d).kmd = d.kmd := rfl
@[simp] theorem cntAdd_fw (off n : Nat) (d : Dev) : (cntAdd off n d).fw = d.fw := rfl
@[simp] theorem cntAdd_hif (off n : Nat) (d : Dev) : (cntAdd off n d).hif = d.hif := rfl
@[simp] theorem cntAdd_ls (off n : Nat) (d : Dev) : (cntAdd off n d).ls = d.ls := rfl
@[simp] theorem cntAdd_jtag (off n : Nat) (d : Dev) : (cntAdd off n d).jtag = d.jtag := rfl
@[simp] theorem cntAdd_pins (off n : Nat) (d : Dev) : (cntAdd off n d).pins = d.pins := rfl
@[simp] theorem cntAdd_regs (off n : Nat) (d : Dev) : (cntAdd off n d).regs = d.regs := rfl
@[simp] theorem cntAdd_freeCtr (off n : Nat) (d : Dev) : (cntAdd off n d).freeCtr = d.freeCtr := rfl

@[simp] theorem cntInc_lnd (off : Nat) (d : Dev) : (cntInc off d).lnd = d.lnd := rfl
@[simp] theorem cntInc_memc (off : Nat) (d : Dev) : (cntInc off d).memc = d.memc := rfl
@[simp] theorem cntInc_rtr (off : Nat) (d : Dev) : (cntInc off d).rtr = d.rtr := rfl
@[simp] theorem cntInc_nic (off : Nat) (d : Dev) : (cntInc off d).nic = d.nic := rfl
@[simp] theorem cntInc_tim (off : Nat) (d : Dev) : (cntInc off d).tim = d.tim := rfl
@[simp] theorem cntInc_ports (off : Nat) (d : Dev) : (cntInc off d).ports = d.ports := rfl
@[simp] theorem cntInc_pwr (off : Nat) (d : Dev) : (cntInc off d).pwr = d.pwr := rfl
@[simp] theorem cntInc_rst (off : Nat) (d : Dev) : (cntInc off d).rst = d.rst := rfl
@[simp] theorem cntInc_health (off : Nat) (d : Dev) : (cntInc off d).health = d.health := rfl
@[simp] theorem cntInc_fuses (off : Nat) (d : Dev) : (cntInc off d).fuses = d.fuses := rfl
@[simp] theorem cntInc_kmd (off : Nat) (d : Dev) : (cntInc off d).kmd = d.kmd := rfl
@[simp] theorem cntInc_fw (off : Nat) (d : Dev) : (cntInc off d).fw = d.fw := rfl
@[simp] theorem cntInc_hif (off : Nat) (d : Dev) : (cntInc off d).hif = d.hif := rfl
@[simp] theorem cntInc_ls (off : Nat) (d : Dev) : (cntInc off d).ls = d.ls := rfl
@[simp] theorem cntInc_jtag (off : Nat) (d : Dev) : (cntInc off d).jtag = d.jtag := rfl
@[simp] theorem cntInc_pins (off : Nat) (d : Dev) : (cntInc off d).pins = d.pins := rfl
@[simp] theorem cntInc_regs (off : Nat) (d : Dev) : (cntInc off d).regs = d.regs := rfl
@[simp] theorem cntInc_freeCtr (off : Nat) (d : Dev) : (cntInc off d).freeCtr = d.freeCtr := rfl

@[simp] theorem cntIf_lnd (b : Bool) (off : Nat) (d : Dev) : (cntIf b off d).lnd = d.lnd := by cases b <;> rfl
@[simp] theorem cntIf_memc (b : Bool) (off : Nat) (d : Dev) : (cntIf b off d).memc = d.memc := by cases b <;> rfl
@[simp] theorem cntIf_rtr (b : Bool) (off : Nat) (d : Dev) : (cntIf b off d).rtr = d.rtr := by cases b <;> rfl
@[simp] theorem cntIf_nic (b : Bool) (off : Nat) (d : Dev) : (cntIf b off d).nic = d.nic := by cases b <;> rfl
@[simp] theorem cntIf_tim (b : Bool) (off : Nat) (d : Dev) : (cntIf b off d).tim = d.tim := by cases b <;> rfl
@[simp] theorem cntIf_ports (b : Bool) (off : Nat) (d : Dev) : (cntIf b off d).ports = d.ports := by cases b <;> rfl
@[simp] theorem cntIf_pwr (b : Bool) (off : Nat) (d : Dev) : (cntIf b off d).pwr = d.pwr := by cases b <;> rfl
@[simp] theorem cntIf_rst (b : Bool) (off : Nat) (d : Dev) : (cntIf b off d).rst = d.rst := by cases b <;> rfl
@[simp] theorem cntIf_health (b : Bool) (off : Nat) (d : Dev) : (cntIf b off d).health = d.health := by cases b <;> rfl
@[simp] theorem cntIf_fuses (b : Bool) (off : Nat) (d : Dev) : (cntIf b off d).fuses = d.fuses := by cases b <;> rfl
@[simp] theorem cntIf_kmd (b : Bool) (off : Nat) (d : Dev) : (cntIf b off d).kmd = d.kmd := by cases b <;> rfl
@[simp] theorem cntIf_fw (b : Bool) (off : Nat) (d : Dev) : (cntIf b off d).fw = d.fw := by cases b <;> rfl
@[simp] theorem cntIf_hif (b : Bool) (off : Nat) (d : Dev) : (cntIf b off d).hif = d.hif := by cases b <;> rfl
@[simp] theorem cntIf_ls (b : Bool) (off : Nat) (d : Dev) : (cntIf b off d).ls = d.ls := by cases b <;> rfl
@[simp] theorem cntIf_jtag (b : Bool) (off : Nat) (d : Dev) : (cntIf b off d).jtag = d.jtag := by cases b <;> rfl
@[simp] theorem cntIf_pins (b : Bool) (off : Nat) (d : Dev) : (cntIf b off d).pins = d.pins := by cases b <;> rfl
@[simp] theorem cntIf_regs (b : Bool) (off : Nat) (d : Dev) : (cntIf b off d).regs = d.regs := by cases b <;> rfl
@[simp] theorem cntIf_freeCtr (b : Bool) (off : Nat) (d : Dev) : (cntIf b off d).freeCtr = d.freeCtr := by cases b <;> rfl

@[simp] theorem cntClear_lnd (lo hi : Nat) (d : Dev) : (cntClear lo hi d).lnd = d.lnd := rfl
@[simp] theorem cntClear_memc (lo hi : Nat) (d : Dev) : (cntClear lo hi d).memc = d.memc := rfl
@[simp] theorem cntClear_rtr (lo hi : Nat) (d : Dev) : (cntClear lo hi d).rtr = d.rtr := rfl
@[simp] theorem cntClear_nic (lo hi : Nat) (d : Dev) : (cntClear lo hi d).nic = d.nic := rfl
@[simp] theorem cntClear_tim (lo hi : Nat) (d : Dev) : (cntClear lo hi d).tim = d.tim := rfl
@[simp] theorem cntClear_ports (lo hi : Nat) (d : Dev) : (cntClear lo hi d).ports = d.ports := rfl
@[simp] theorem cntClear_pwr (lo hi : Nat) (d : Dev) : (cntClear lo hi d).pwr = d.pwr := rfl
@[simp] theorem cntClear_rst (lo hi : Nat) (d : Dev) : (cntClear lo hi d).rst = d.rst := rfl
@[simp] theorem cntClear_health (lo hi : Nat) (d : Dev) : (cntClear lo hi d).health = d.health := rfl
@[simp] theorem cntClear_fuses (lo hi : Nat) (d : Dev) : (cntClear lo hi d).fuses = d.fuses := rfl
@[simp] theorem cntClear_kmd (lo hi : Nat) (d : Dev) : (cntClear lo hi d).kmd = d.kmd := rfl
@[simp] theorem cntClear_fw (lo hi : Nat) (d : Dev) : (cntClear lo hi d).fw = d.fw := rfl
@[simp] theorem cntClear_hif (lo hi : Nat) (d : Dev) : (cntClear lo hi d).hif = d.hif := rfl
@[simp] theorem cntClear_ls (lo hi : Nat) (d : Dev) : (cntClear lo hi d).ls = d.ls := rfl
@[simp] theorem cntClear_jtag (lo hi : Nat) (d : Dev) : (cntClear lo hi d).jtag = d.jtag := rfl
@[simp] theorem cntClear_pins (lo hi : Nat) (d : Dev) : (cntClear lo hi d).pins = d.pins := rfl
@[simp] theorem cntClear_regs (lo hi : Nat) (d : Dev) : (cntClear lo hi d).regs = d.regs := rfl
@[simp] theorem cntClear_freeCtr (lo hi : Nat) (d : Dev) : (cntClear lo hi d).freeCtr = d.freeCtr := rfl

@[simp] theorem regPut_lnd (off : Nat) (v : W64) (d : Dev) : (regPut off v d).lnd = d.lnd := rfl
@[simp] theorem regPut_memc (off : Nat) (v : W64) (d : Dev) : (regPut off v d).memc = d.memc := rfl
@[simp] theorem regPut_rtr (off : Nat) (v : W64) (d : Dev) : (regPut off v d).rtr = d.rtr := rfl
@[simp] theorem regPut_nic (off : Nat) (v : W64) (d : Dev) : (regPut off v d).nic = d.nic := rfl
@[simp] theorem regPut_tim (off : Nat) (v : W64) (d : Dev) : (regPut off v d).tim = d.tim := rfl
@[simp] theorem regPut_ports (off : Nat) (v : W64) (d : Dev) : (regPut off v d).ports = d.ports := rfl
@[simp] theorem regPut_pwr (off : Nat) (v : W64) (d : Dev) : (regPut off v d).pwr = d.pwr := rfl
@[simp] theorem regPut_rst (off : Nat) (v : W64) (d : Dev) : (regPut off v d).rst = d.rst := rfl
@[simp] theorem regPut_health (off : Nat) (v : W64) (d : Dev) : (regPut off v d).health = d.health := rfl
@[simp] theorem regPut_fuses (off : Nat) (v : W64) (d : Dev) : (regPut off v d).fuses = d.fuses := rfl
@[simp] theorem regPut_kmd (off : Nat) (v : W64) (d : Dev) : (regPut off v d).kmd = d.kmd := rfl
@[simp] theorem regPut_fw (off : Nat) (v : W64) (d : Dev) : (regPut off v d).fw = d.fw := rfl
@[simp] theorem regPut_hif (off : Nat) (v : W64) (d : Dev) : (regPut off v d).hif = d.hif := rfl
@[simp] theorem regPut_ls (off : Nat) (v : W64) (d : Dev) : (regPut off v d).ls = d.ls := rfl
@[simp] theorem regPut_jtag (off : Nat) (v : W64) (d : Dev) : (regPut off v d).jtag = d.jtag := rfl
@[simp] theorem regPut_pins (off : Nat) (v : W64) (d : Dev) : (regPut off v d).pins = d.pins := rfl
@[simp] theorem regPut_cnt (off : Nat) (v : W64) (d : Dev) : (regPut off v d).cnt = d.cnt := rfl
@[simp] theorem regPut_freeCtr (off : Nat) (v : W64) (d : Dev) : (regPut off v d).freeCtr = d.freeCtr := rfl

@[simp] theorem objPut_lnd (key v : Nat) (d : Dev) : (objPut key v d).lnd = d.lnd := rfl
@[simp] theorem objPut_memc (key v : Nat) (d : Dev) : (objPut key v d).memc = d.memc := rfl
@[simp] theorem objPut_rtr (key v : Nat) (d : Dev) : (objPut key v d).rtr = d.rtr := rfl
@[simp] theorem objPut_nic (key v : Nat) (d : Dev) : (objPut key v d).nic = d.nic := rfl
@[simp] theorem objPut_tim (key v : Nat) (d : Dev) : (objPut key v d).tim = d.tim := rfl
@[simp] theorem objPut_ports (key v : Nat) (d : Dev) : (objPut key v d).ports = d.ports := rfl
@[simp] theorem objPut_pwr (key v : Nat) (d : Dev) : (objPut key v d).pwr = d.pwr := rfl
@[simp] theorem objPut_rst (key v : Nat) (d : Dev) : (objPut key v d).rst = d.rst := rfl
@[simp] theorem objPut_health (key v : Nat) (d : Dev) : (objPut key v d).health = d.health := rfl
@[simp] theorem objPut_fuses (key v : Nat) (d : Dev) : (objPut key v d).fuses = d.fuses := rfl
@[simp] theorem objPut_fw (key v : Nat) (d : Dev) : (objPut key v d).fw = d.fw := rfl
@[simp] theorem objPut_hif (key v : Nat) (d : Dev) : (objPut key v d).hif = d.hif := rfl
@[simp] theorem objPut_ls (key v : Nat) (d : Dev) : (objPut key v d).ls = d.ls := rfl
@[simp] theorem objPut_jtag (key v : Nat) (d : Dev) : (objPut key v d).jtag = d.jtag := rfl
@[simp] theorem objPut_pins (key v : Nat) (d : Dev) : (objPut key v d).pins = d.pins := rfl
@[simp] theorem objPut_cnt (key v : Nat) (d : Dev) : (objPut key v d).cnt = d.cnt := rfl
@[simp] theorem objPut_regs (key v : Nat) (d : Dev) : (objPut key v d).regs = d.regs := rfl
@[simp] theorem objPut_freeCtr (key v : Nat) (d : Dev) : (objPut key v d).freeCtr = d.freeCtr := rfl

@[simp] theorem blobPut_lnd (key : Nat) (b : List Byte) (d : Dev) : (blobPut key b d).lnd = d.lnd := rfl
@[simp] theorem blobPut_memc (key : Nat) (b : List Byte) (d : Dev) : (blobPut key b d).memc = d.memc := rfl
@[simp] theorem blobPut_rtr (key : Nat) (b : List Byte) (d : Dev) : (blobPut key b d).rtr = d.rtr := rfl
@[simp] theorem blobPut_nic (key : Nat) (b : List Byte) (d : Dev) : (blobPut key b d).nic = d.nic := rfl
@[simp] theorem blobPut_tim (key : Nat) (b : List Byte) (d : Dev) : (blobPut key b d).tim = d.tim := rfl
@[simp] theorem blobPut_ports (key : Nat) (b : List Byte) (d : Dev) : (blobPut key b d).ports = d.ports := rfl
@[simp] theorem blobPut_pwr (key : Nat) (b : List Byte) (d : Dev) : (blobPut key b d).pwr = d.pwr := rfl
@[simp] theorem blobPut_rst (key : Nat) (b : List Byte) (d : Dev) : (blobPut key b d).rst = d.rst := rfl
@[simp] theorem blobPut_health (key : Nat) (b : List Byte) (d : Dev) : (blobPut key b d).health = d.health := rfl
@[simp] theorem blobPut_fuses (key : Nat) (b : List Byte) (d : Dev) : (blobPut key b d).fuses = d.fuses := rfl
@[simp] theorem blobPut_fw (key : Nat) (b : List Byte) (d : Dev) : (blobPut key b d).fw = d.fw := rfl
@[simp] theorem blobPut_hif (key : Nat) (b : List Byte) (d : Dev) : (blobPut key b d).hif = d.hif := rfl
@[simp] theorem blobPut_ls (key : Nat) (b : List Byte) (d : Dev) : (blobPut key b d).ls = d.ls := rfl
@[simp] theorem blobPut_jtag (key : Nat) (b : List Byte) (d : Dev) : (blobPut key b d).jtag = d.jtag := rfl
@[simp] theorem blobPut_pins (key : Nat) (b : List Byte) (d : Dev) : (blobPut key b d).pins = d.pins := rfl
@[simp] theorem blobPut_cnt (key : Nat) (b : List Byte) (d : Dev) : (blobPut key b d).cnt = d.cnt := rfl
@[simp] theorem blobPut_regs (key : Nat) (b : List Byte) (d : Dev) : (blobPut key b d).regs = d.regs := rfl
@[simp] theorem blobPut_freeCtr (key : Nat) (b : List Byte) (d : Dev) : (blobPut key b d).freeCtr = d.freeCtr := rfl

@[simp] theorem fireVec_lnd (v : Nat) (d : Dev) : (fireVec v d).lnd = d.lnd := by unfold fireVec; split <;> rfl
@[simp] theorem fireVec_memc (v : Nat) (d : Dev) : (fireVec v d).memc = d.memc := by unfold fireVec; split <;> rfl
@[simp] theorem fireVec_rtr (v : Nat) (d : Dev) : (fireVec v d).rtr = d.rtr := by unfold fireVec; split <;> rfl
@[simp] theorem fireVec_nic (v : Nat) (d : Dev) : (fireVec v d).nic = d.nic := by unfold fireVec; split <;> rfl
@[simp] theorem fireVec_tim (v : Nat) (d : Dev) : (fireVec v d).tim = d.tim := by unfold fireVec; split <;> rfl
@[simp] theorem fireVec_ports (v : Nat) (d : Dev) : (fireVec v d).ports = d.ports := by unfold fireVec; split <;> rfl
@[simp] theorem fireVec_pwr (v : Nat) (d : Dev) : (fireVec v d).pwr = d.pwr := by unfold fireVec; split <;> rfl
@[simp] theorem fireVec_rst (v : Nat) (d : Dev) : (fireVec v d).rst = d.rst := by unfold fireVec; split <;> rfl
@[simp] theorem fireVec_health (v : Nat) (d : Dev) : (fireVec v d).health = d.health := by unfold fireVec; split <;> rfl
@[simp] theorem fireVec_fuses (v : Nat) (d : Dev) : (fireVec v d).fuses = d.fuses := by unfold fireVec; split <;> rfl
@[simp] theorem fireVec_kmd (v : Nat) (d : Dev) : (fireVec v d).kmd = d.kmd := by unfold fireVec; split <;> rfl
@[simp] theorem fireVec_fw (v : Nat) (d : Dev) : (fireVec v d).fw = d.fw := by unfold fireVec; split <;> rfl
@[simp] theorem fireVec_ls (v : Nat) (d : Dev) : (fireVec v d).ls = d.ls := by unfold fireVec; split <;> rfl
@[simp] theorem fireVec_jtag (v : Nat) (d : Dev) : (fireVec v d).jtag = d.jtag := by unfold fireVec; split <;> rfl
@[simp] theorem fireVec_pins (v : Nat) (d : Dev) : (fireVec v d).pins = d.pins := by unfold fireVec; split <;> rfl
@[simp] theorem fireVec_cnt (v : Nat) (d : Dev) : (fireVec v d).cnt = d.cnt := by unfold fireVec; split <;> rfl
@[simp] theorem fireVec_regs (v : Nat) (d : Dev) : (fireVec v d).regs = d.regs := by unfold fireVec; split <;> rfl
@[simp] theorem fireVec_freeCtr (v : Nat) (d : Dev) : (fireVec v d).freeCtr = d.freeCtr := by unfold fireVec; split <;> rfl

@[simp] theorem hifErrBit_lnd (b : Nat) (d : Dev) : (hifErrBit b d).lnd = d.lnd := by unfold hifErrBit; split <;> simp
@[simp] theorem hifErrBit_memc (b : Nat) (d : Dev) : (hifErrBit b d).memc = d.memc := by unfold hifErrBit; split <;> simp
@[simp] theorem hifErrBit_rtr (b : Nat) (d : Dev) : (hifErrBit b d).rtr = d.rtr := by unfold hifErrBit; split <;> simp
@[simp] theorem hifErrBit_nic (b : Nat) (d : Dev) : (hifErrBit b d).nic = d.nic := by unfold hifErrBit; split <;> simp
@[simp] theorem hifErrBit_tim (b : Nat) (d : Dev) : (hifErrBit b d).tim = d.tim := by unfold hifErrBit; split <;> simp
@[simp] theorem hifErrBit_ports (b : Nat) (d : Dev) : (hifErrBit b d).ports = d.ports := by unfold hifErrBit; split <;> simp
@[simp] theorem hifErrBit_pwr (b : Nat) (d : Dev) : (hifErrBit b d).pwr = d.pwr := by unfold hifErrBit; split <;> simp
@[simp] theorem hifErrBit_rst (b : Nat) (d : Dev) : (hifErrBit b d).rst = d.rst := by unfold hifErrBit; split <;> simp
@[simp] theorem hifErrBit_health (b : Nat) (d : Dev) : (hifErrBit b d).health = d.health := by unfold hifErrBit; split <;> simp
@[simp] theorem hifErrBit_fuses (b : Nat) (d : Dev) : (hifErrBit b d).fuses = d.fuses := by unfold hifErrBit; split <;> simp
@[simp] theorem hifErrBit_kmd (b : Nat) (d : Dev) : (hifErrBit b d).kmd = d.kmd := by unfold hifErrBit; split <;> simp
@[simp] theorem hifErrBit_fw (b : Nat) (d : Dev) : (hifErrBit b d).fw = d.fw := by unfold hifErrBit; split <;> simp
@[simp] theorem hifErrBit_ls (b : Nat) (d : Dev) : (hifErrBit b d).ls = d.ls := by unfold hifErrBit; split <;> simp
@[simp] theorem hifErrBit_jtag (b : Nat) (d : Dev) : (hifErrBit b d).jtag = d.jtag := by unfold hifErrBit; split <;> simp
@[simp] theorem hifErrBit_pins (b : Nat) (d : Dev) : (hifErrBit b d).pins = d.pins := by unfold hifErrBit; split <;> simp
@[simp] theorem hifErrBit_cnt (b : Nat) (d : Dev) : (hifErrBit b d).cnt = d.cnt := by unfold hifErrBit; split <;> simp
@[simp] theorem hifErrBit_regs (b : Nat) (d : Dev) : (hifErrBit b d).regs = d.regs := by unfold hifErrBit; split <;> simp
@[simp] theorem hifErrBit_freeCtr (b : Nat) (d : Dev) : (hifErrBit b d).freeCtr = d.freeCtr := by unfold hifErrBit; split <;> simp

@[simp] theorem hifErrWhere_lnd (slot ring : Nat) (d : Dev) : (hifErrWhere slot ring d).lnd = d.lnd := rfl
@[simp] theorem hifErrWhere_memc (slot ring : Nat) (d : Dev) : (hifErrWhere slot ring d).memc = d.memc := rfl
@[simp] theorem hifErrWhere_rtr (slot ring : Nat) (d : Dev) : (hifErrWhere slot ring d).rtr = d.rtr := rfl
@[simp] theorem hifErrWhere_nic (slot ring : Nat) (d : Dev) : (hifErrWhere slot ring d).nic = d.nic := rfl
@[simp] theorem hifErrWhere_tim (slot ring : Nat) (d : Dev) : (hifErrWhere slot ring d).tim = d.tim := rfl
@[simp] theorem hifErrWhere_ports (slot ring : Nat) (d : Dev) : (hifErrWhere slot ring d).ports = d.ports := rfl
@[simp] theorem hifErrWhere_pwr (slot ring : Nat) (d : Dev) : (hifErrWhere slot ring d).pwr = d.pwr := rfl
@[simp] theorem hifErrWhere_rst (slot ring : Nat) (d : Dev) : (hifErrWhere slot ring d).rst = d.rst := rfl
@[simp] theorem hifErrWhere_health (slot ring : Nat) (d : Dev) : (hifErrWhere slot ring d).health = d.health := rfl
@[simp] theorem hifErrWhere_fuses (slot ring : Nat) (d : Dev) : (hifErrWhere slot ring d).fuses = d.fuses := rfl
@[simp] theorem hifErrWhere_kmd (slot ring : Nat) (d : Dev) : (hifErrWhere slot ring d).kmd = d.kmd := rfl
@[simp] theorem hifErrWhere_fw (slot ring : Nat) (d : Dev) : (hifErrWhere slot ring d).fw = d.fw := rfl
@[simp] theorem hifErrWhere_ls (slot ring : Nat) (d : Dev) : (hifErrWhere slot ring d).ls = d.ls := rfl
@[simp] theorem hifErrWhere_jtag (slot ring : Nat) (d : Dev) : (hifErrWhere slot ring d).jtag = d.jtag := rfl
@[simp] theorem hifErrWhere_pins (slot ring : Nat) (d : Dev) : (hifErrWhere slot ring d).pins = d.pins := rfl
@[simp] theorem hifErrWhere_cnt (slot ring : Nat) (d : Dev) : (hifErrWhere slot ring d).cnt = d.cnt := rfl
@[simp] theorem hifErrWhere_regs (slot ring : Nat) (d : Dev) : (hifErrWhere slot ring d).regs = d.regs := rfl
@[simp] theorem hifErrWhere_freeCtr (slot ring : Nat) (d : Dev) : (hifErrWhere slot ring d).freeCtr = d.freeCtr := rfl

@[simp] theorem timEvtBit_lnd (b : Nat) (d : Dev) : (timEvtBit b d).lnd = d.lnd := by unfold timEvtBit; split <;> simp
@[simp] theorem timEvtBit_memc (b : Nat) (d : Dev) : (timEvtBit b d).memc = d.memc := by unfold timEvtBit; split <;> simp
@[simp] theorem timEvtBit_rtr (b : Nat) (d : Dev) : (timEvtBit b d).rtr = d.rtr := by unfold timEvtBit; split <;> simp
@[simp] theorem timEvtBit_nic (b : Nat) (d : Dev) : (timEvtBit b d).nic = d.nic := by unfold timEvtBit; split <;> simp
@[simp] theorem timEvtBit_ports (b : Nat) (d : Dev) : (timEvtBit b d).ports = d.ports := by unfold timEvtBit; split <;> simp
@[simp] theorem timEvtBit_pwr (b : Nat) (d : Dev) : (timEvtBit b d).pwr = d.pwr := by unfold timEvtBit; split <;> simp
@[simp] theorem timEvtBit_rst (b : Nat) (d : Dev) : (timEvtBit b d).rst = d.rst := by unfold timEvtBit; split <;> simp
@[simp] theorem timEvtBit_health (b : Nat) (d : Dev) : (timEvtBit b d).health = d.health := by unfold timEvtBit; split <;> simp
@[simp] theorem timEvtBit_fuses (b : Nat) (d : Dev) : (timEvtBit b d).fuses = d.fuses := by unfold timEvtBit; split <;> simp
@[simp] theorem timEvtBit_kmd (b : Nat) (d : Dev) : (timEvtBit b d).kmd = d.kmd := by unfold timEvtBit; split <;> simp
@[simp] theorem timEvtBit_fw (b : Nat) (d : Dev) : (timEvtBit b d).fw = d.fw := by unfold timEvtBit; split <;> simp
@[simp] theorem timEvtBit_ls (b : Nat) (d : Dev) : (timEvtBit b d).ls = d.ls := by unfold timEvtBit; split <;> simp
@[simp] theorem timEvtBit_jtag (b : Nat) (d : Dev) : (timEvtBit b d).jtag = d.jtag := by unfold timEvtBit; split <;> simp
@[simp] theorem timEvtBit_pins (b : Nat) (d : Dev) : (timEvtBit b d).pins = d.pins := by unfold timEvtBit; split <;> simp
@[simp] theorem timEvtBit_cnt (b : Nat) (d : Dev) : (timEvtBit b d).cnt = d.cnt := by unfold timEvtBit; split <;> simp
@[simp] theorem timEvtBit_regs (b : Nat) (d : Dev) : (timEvtBit b d).regs = d.regs := by unfold timEvtBit; split <;> simp
@[simp] theorem timEvtBit_freeCtr (b : Nat) (d : Dev) : (timEvtBit b d).freeCtr = d.freeCtr := by unfold timEvtBit; split <;> simp

@[simp] theorem pwrEvtBit_lnd (b : Nat) (d : Dev) : (pwrEvtBit b d).lnd = d.lnd := by unfold pwrEvtBit; split <;> simp
@[simp] theorem pwrEvtBit_memc (b : Nat) (d : Dev) : (pwrEvtBit b d).memc = d.memc := by unfold pwrEvtBit; split <;> simp
@[simp] theorem pwrEvtBit_rtr (b : Nat) (d : Dev) : (pwrEvtBit b d).rtr = d.rtr := by unfold pwrEvtBit; split <;> simp
@[simp] theorem pwrEvtBit_nic (b : Nat) (d : Dev) : (pwrEvtBit b d).nic = d.nic := by unfold pwrEvtBit; split <;> simp
@[simp] theorem pwrEvtBit_tim (b : Nat) (d : Dev) : (pwrEvtBit b d).tim = d.tim := by unfold pwrEvtBit; split <;> simp
@[simp] theorem pwrEvtBit_ports (b : Nat) (d : Dev) : (pwrEvtBit b d).ports = d.ports := by unfold pwrEvtBit; split <;> simp
@[simp] theorem pwrEvtBit_rst (b : Nat) (d : Dev) : (pwrEvtBit b d).rst = d.rst := by unfold pwrEvtBit; split <;> simp
@[simp] theorem pwrEvtBit_health (b : Nat) (d : Dev) : (pwrEvtBit b d).health = d.health := by unfold pwrEvtBit; split <;> simp
@[simp] theorem pwrEvtBit_fuses (b : Nat) (d : Dev) : (pwrEvtBit b d).fuses = d.fuses := by unfold pwrEvtBit; split <;> simp
@[simp] theorem pwrEvtBit_kmd (b : Nat) (d : Dev) : (pwrEvtBit b d).kmd = d.kmd := by unfold pwrEvtBit; split <;> simp
@[simp] theorem pwrEvtBit_fw (b : Nat) (d : Dev) : (pwrEvtBit b d).fw = d.fw := by unfold pwrEvtBit; split <;> simp
@[simp] theorem pwrEvtBit_ls (b : Nat) (d : Dev) : (pwrEvtBit b d).ls = d.ls := by unfold pwrEvtBit; split <;> simp
@[simp] theorem pwrEvtBit_jtag (b : Nat) (d : Dev) : (pwrEvtBit b d).jtag = d.jtag := by unfold pwrEvtBit; split <;> simp
@[simp] theorem pwrEvtBit_pins (b : Nat) (d : Dev) : (pwrEvtBit b d).pins = d.pins := by unfold pwrEvtBit; split <;> simp
@[simp] theorem pwrEvtBit_cnt (b : Nat) (d : Dev) : (pwrEvtBit b d).cnt = d.cnt := by unfold pwrEvtBit; split <;> simp
@[simp] theorem pwrEvtBit_regs (b : Nat) (d : Dev) : (pwrEvtBit b d).regs = d.regs := by unfold pwrEvtBit; split <;> simp
@[simp] theorem pwrEvtBit_freeCtr (b : Nat) (d : Dev) : (pwrEvtBit b d).freeCtr = d.freeCtr := by unfold pwrEvtBit; split <;> simp

@[simp] theorem sendFrame_lnd (dst : BitVec 48) (mtype key reqId : Nat) (body : List Byte) (d : Dev) : (sendFrame dst mtype key reqId body d).lnd = d.lnd := rfl
@[simp] theorem sendFrame_memc (dst : BitVec 48) (mtype key reqId : Nat) (body : List Byte) (d : Dev) : (sendFrame dst mtype key reqId body d).memc = d.memc := rfl
@[simp] theorem sendFrame_rtr (dst : BitVec 48) (mtype key reqId : Nat) (body : List Byte) (d : Dev) : (sendFrame dst mtype key reqId body d).rtr = d.rtr := rfl
@[simp] theorem sendFrame_nic (dst : BitVec 48) (mtype key reqId : Nat) (body : List Byte) (d : Dev) : (sendFrame dst mtype key reqId body d).nic = d.nic := rfl
@[simp] theorem sendFrame_tim (dst : BitVec 48) (mtype key reqId : Nat) (body : List Byte) (d : Dev) : (sendFrame dst mtype key reqId body d).tim = d.tim := rfl
@[simp] theorem sendFrame_ports (dst : BitVec 48) (mtype key reqId : Nat) (body : List Byte) (d : Dev) : (sendFrame dst mtype key reqId body d).ports = d.ports := rfl
@[simp] theorem sendFrame_pwr (dst : BitVec 48) (mtype key reqId : Nat) (body : List Byte) (d : Dev) : (sendFrame dst mtype key reqId body d).pwr = d.pwr := rfl
@[simp] theorem sendFrame_rst (dst : BitVec 48) (mtype key reqId : Nat) (body : List Byte) (d : Dev) : (sendFrame dst mtype key reqId body d).rst = d.rst := rfl
@[simp] theorem sendFrame_health (dst : BitVec 48) (mtype key reqId : Nat) (body : List Byte) (d : Dev) : (sendFrame dst mtype key reqId body d).health = d.health := rfl
@[simp] theorem sendFrame_fuses (dst : BitVec 48) (mtype key reqId : Nat) (body : List Byte) (d : Dev) : (sendFrame dst mtype key reqId body d).fuses = d.fuses := rfl
@[simp] theorem sendFrame_fw (dst : BitVec 48) (mtype key reqId : Nat) (body : List Byte) (d : Dev) : (sendFrame dst mtype key reqId body d).fw = d.fw := rfl
@[simp] theorem sendFrame_hif (dst : BitVec 48) (mtype key reqId : Nat) (body : List Byte) (d : Dev) : (sendFrame dst mtype key reqId body d).hif = d.hif := rfl
@[simp] theorem sendFrame_ls (dst : BitVec 48) (mtype key reqId : Nat) (body : List Byte) (d : Dev) : (sendFrame dst mtype key reqId body d).ls = d.ls := rfl
@[simp] theorem sendFrame_jtag (dst : BitVec 48) (mtype key reqId : Nat) (body : List Byte) (d : Dev) : (sendFrame dst mtype key reqId body d).jtag = d.jtag := rfl
@[simp] theorem sendFrame_pins (dst : BitVec 48) (mtype key reqId : Nat) (body : List Byte) (d : Dev) : (sendFrame dst mtype key reqId body d).pins = d.pins := rfl
@[simp] theorem sendFrame_cnt (dst : BitVec 48) (mtype key reqId : Nat) (body : List Byte) (d : Dev) : (sendFrame dst mtype key reqId body d).cnt = d.cnt := rfl
@[simp] theorem sendFrame_regs (dst : BitVec 48) (mtype key reqId : Nat) (body : List Byte) (d : Dev) : (sendFrame dst mtype key reqId body d).regs = d.regs := rfl
@[simp] theorem sendFrame_freeCtr (dst : BitVec 48) (mtype key reqId : Nat) (body : List Byte) (d : Dev) : (sendFrame dst mtype key reqId body d).freeCtr = d.freeCtr := rfl

@[simp] theorem sendEvents_lnd (recs : List EvRec) (d : Dev) : (sendEvents recs d).lnd = d.lnd := by unfold sendEvents; split <;> rfl
@[simp] theorem sendEvents_memc (recs : List EvRec) (d : Dev) : (sendEvents recs d).memc = d.memc := by unfold sendEvents; split <;> rfl
@[simp] theorem sendEvents_rtr (recs : List EvRec) (d : Dev) : (sendEvents recs d).rtr = d.rtr := by unfold sendEvents; split <;> rfl
@[simp] theorem sendEvents_nic (recs : List EvRec) (d : Dev) : (sendEvents recs d).nic = d.nic := by unfold sendEvents; split <;> rfl
@[simp] theorem sendEvents_tim (recs : List EvRec) (d : Dev) : (sendEvents recs d).tim = d.tim := by unfold sendEvents; split <;> rfl
@[simp] theorem sendEvents_ports (recs : List EvRec) (d : Dev) : (sendEvents recs d).ports = d.ports := by unfold sendEvents; split <;> rfl
@[simp] theorem sendEvents_pwr (recs : List EvRec) (d : Dev) : (sendEvents recs d).pwr = d.pwr := by unfold sendEvents; split <;> rfl
@[simp] theorem sendEvents_rst (recs : List EvRec) (d : Dev) : (sendEvents recs d).rst = d.rst := by unfold sendEvents; split <;> rfl
@[simp] theorem sendEvents_health (recs : List EvRec) (d : Dev) : (sendEvents recs d).health = d.health := by unfold sendEvents; split <;> rfl
@[simp] theorem sendEvents_fuses (recs : List EvRec) (d : Dev) : (sendEvents recs d).fuses = d.fuses := by unfold sendEvents; split <;> rfl
@[simp] theorem sendEvents_fw (recs : List EvRec) (d : Dev) : (sendEvents recs d).fw = d.fw := by unfold sendEvents; split <;> rfl
@[simp] theorem sendEvents_hif (recs : List EvRec) (d : Dev) : (sendEvents recs d).hif = d.hif := by unfold sendEvents; split <;> rfl
@[simp] theorem sendEvents_ls (recs : List EvRec) (d : Dev) : (sendEvents recs d).ls = d.ls := by unfold sendEvents; split <;> rfl
@[simp] theorem sendEvents_jtag (recs : List EvRec) (d : Dev) : (sendEvents recs d).jtag = d.jtag := by unfold sendEvents; split <;> rfl
@[simp] theorem sendEvents_pins (recs : List EvRec) (d : Dev) : (sendEvents recs d).pins = d.pins := by unfold sendEvents; split <;> rfl
@[simp] theorem sendEvents_cnt (recs : List EvRec) (d : Dev) : (sendEvents recs d).cnt = d.cnt := by unfold sendEvents; split <;> rfl
@[simp] theorem sendEvents_regs (recs : List EvRec) (d : Dev) : (sendEvents recs d).regs = d.regs := by unfold sendEvents; split <;> rfl
@[simp] theorem sendEvents_freeCtr (recs : List EvRec) (d : Dev) : (sendEvents recs d).freeCtr = d.freeCtr := by unfold sendEvents; split <;> rfl

@[simp] theorem emit_lnd (code unit : Nat) (detail : W64) (d : Dev) : (emit code unit detail d).lnd = d.lnd := by
  unfold emit; split <;> first | rfl | (dsimp only; split <;> simp)
@[simp] theorem emit_memc (code unit : Nat) (detail : W64) (d : Dev) : (emit code unit detail d).memc = d.memc := by
  unfold emit; split <;> first | rfl | (dsimp only; split <;> simp)
@[simp] theorem emit_rtr (code unit : Nat) (detail : W64) (d : Dev) : (emit code unit detail d).rtr = d.rtr := by
  unfold emit; split <;> first | rfl | (dsimp only; split <;> simp)
@[simp] theorem emit_nic (code unit : Nat) (detail : W64) (d : Dev) : (emit code unit detail d).nic = d.nic := by
  unfold emit; split <;> first | rfl | (dsimp only; split <;> simp)
@[simp] theorem emit_tim (code unit : Nat) (detail : W64) (d : Dev) : (emit code unit detail d).tim = d.tim := by
  unfold emit; split <;> first | rfl | (dsimp only; split <;> simp)
@[simp] theorem emit_ports (code unit : Nat) (detail : W64) (d : Dev) : (emit code unit detail d).ports = d.ports := by
  unfold emit; split <;> first | rfl | (dsimp only; split <;> simp)
@[simp] theorem emit_pwr (code unit : Nat) (detail : W64) (d : Dev) : (emit code unit detail d).pwr = d.pwr := by
  unfold emit; split <;> first | rfl | (dsimp only; split <;> simp)
@[simp] theorem emit_rst (code unit : Nat) (detail : W64) (d : Dev) : (emit code unit detail d).rst = d.rst := by
  unfold emit; split <;> first | rfl | (dsimp only; split <;> simp)
@[simp] theorem emit_health (code unit : Nat) (detail : W64) (d : Dev) : (emit code unit detail d).health = d.health := by
  unfold emit; split <;> first | rfl | (dsimp only; split <;> simp)
@[simp] theorem emit_fuses (code unit : Nat) (detail : W64) (d : Dev) : (emit code unit detail d).fuses = d.fuses := by
  unfold emit; split <;> first | rfl | (dsimp only; split <;> simp)
@[simp] theorem emit_fw (code unit : Nat) (detail : W64) (d : Dev) : (emit code unit detail d).fw = d.fw := by
  unfold emit; split <;> first | rfl | (dsimp only; split <;> simp)
@[simp] theorem emit_hif (code unit : Nat) (detail : W64) (d : Dev) : (emit code unit detail d).hif = d.hif := by
  unfold emit; split <;> first | rfl | (dsimp only; split <;> simp)
@[simp] theorem emit_ls (code unit : Nat) (detail : W64) (d : Dev) : (emit code unit detail d).ls = d.ls := by
  unfold emit; split <;> first | rfl | (dsimp only; split <;> simp)
@[simp] theorem emit_jtag (code unit : Nat) (detail : W64) (d : Dev) : (emit code unit detail d).jtag = d.jtag := by
  unfold emit; split <;> first | rfl | (dsimp only; split <;> simp)
@[simp] theorem emit_pins (code unit : Nat) (detail : W64) (d : Dev) : (emit code unit detail d).pins = d.pins := by
  unfold emit; split <;> first | rfl | (dsimp only; split <;> simp)
@[simp] theorem emit_regs (code unit : Nat) (detail : W64) (d : Dev) : (emit code unit detail d).regs = d.regs := by
  unfold emit; split <;> first | rfl | (dsimp only; split <;> simp)
@[simp] theorem emit_freeCtr (code unit : Nat) (detail : W64) (d : Dev) : (emit code unit detail d).freeCtr = d.freeCtr := by
  unfold emit; split <;> first | rfl | (dsimp only; split <;> simp)

@[simp] theorem setState_lnd (m : MState) (d : Dev) : (setState m d).lnd = d.lnd := by unfold setState; split <;> simp
@[simp] theorem setState_memc (m : MState) (d : Dev) : (setState m d).memc = d.memc := by unfold setState; split <;> simp
@[simp] theorem setState_rtr (m : MState) (d : Dev) : (setState m d).rtr = d.rtr := by unfold setState; split <;> simp
@[simp] theorem setState_nic (m : MState) (d : Dev) : (setState m d).nic = d.nic := by unfold setState; split <;> simp
@[simp] theorem setState_tim (m : MState) (d : Dev) : (setState m d).tim = d.tim := by unfold setState; split <;> simp
@[simp] theorem setState_ports (m : MState) (d : Dev) : (setState m d).ports = d.ports := by unfold setState; split <;> simp
@[simp] theorem setState_pwr (m : MState) (d : Dev) : (setState m d).pwr = d.pwr := by unfold setState; split <;> simp
@[simp] theorem setState_rst (m : MState) (d : Dev) : (setState m d).rst = d.rst := by unfold setState; split <;> simp
@[simp] theorem setState_fuses (m : MState) (d : Dev) : (setState m d).fuses = d.fuses := by unfold setState; split <;> simp
@[simp] theorem setState_fw (m : MState) (d : Dev) : (setState m d).fw = d.fw := by unfold setState; split <;> simp
@[simp] theorem setState_hif (m : MState) (d : Dev) : (setState m d).hif = d.hif := by unfold setState; split <;> simp
@[simp] theorem setState_ls (m : MState) (d : Dev) : (setState m d).ls = d.ls := by unfold setState; split <;> simp
@[simp] theorem setState_jtag (m : MState) (d : Dev) : (setState m d).jtag = d.jtag := by unfold setState; split <;> simp
@[simp] theorem setState_pins (m : MState) (d : Dev) : (setState m d).pins = d.pins := by unfold setState; split <;> simp
@[simp] theorem setState_regs (m : MState) (d : Dev) : (setState m d).regs = d.regs := by unfold setState; split <;> simp
@[simp] theorem setState_freeCtr (m : MState) (d : Dev) : (setState m d).freeCtr = d.freeCtr := by unfold setState; split <;> simp

@[simp] theorem settleState_lnd (d : Dev) : (settleState d).lnd = d.lnd := by unfold settleState; split <;> (try split) <;> simp
@[simp] theorem settleState_memc (d : Dev) : (settleState d).memc = d.memc := by unfold settleState; split <;> (try split) <;> simp
@[simp] theorem settleState_rtr (d : Dev) : (settleState d).rtr = d.rtr := by unfold settleState; split <;> (try split) <;> simp
@[simp] theorem settleState_nic (d : Dev) : (settleState d).nic = d.nic := by unfold settleState; split <;> (try split) <;> simp
@[simp] theorem settleState_tim (d : Dev) : (settleState d).tim = d.tim := by unfold settleState; split <;> (try split) <;> simp
@[simp] theorem settleState_ports (d : Dev) : (settleState d).ports = d.ports := by unfold settleState; split <;> (try split) <;> simp
@[simp] theorem settleState_pwr (d : Dev) : (settleState d).pwr = d.pwr := by unfold settleState; split <;> (try split) <;> simp
@[simp] theorem settleState_rst (d : Dev) : (settleState d).rst = d.rst := by unfold settleState; split <;> (try split) <;> simp
@[simp] theorem settleState_fuses (d : Dev) : (settleState d).fuses = d.fuses := by unfold settleState; split <;> (try split) <;> simp
@[simp] theorem settleState_fw (d : Dev) : (settleState d).fw = d.fw := by unfold settleState; split <;> (try split) <;> simp
@[simp] theorem settleState_hif (d : Dev) : (settleState d).hif = d.hif := by unfold settleState; split <;> (try split) <;> simp
@[simp] theorem settleState_ls (d : Dev) : (settleState d).ls = d.ls := by unfold settleState; split <;> (try split) <;> simp
@[simp] theorem settleState_jtag (d : Dev) : (settleState d).jtag = d.jtag := by unfold settleState; split <;> (try split) <;> simp
@[simp] theorem settleState_pins (d : Dev) : (settleState d).pins = d.pins := by unfold settleState; split <;> (try split) <;> simp
@[simp] theorem settleState_regs (d : Dev) : (settleState d).regs = d.regs := by unfold settleState; split <;> (try split) <;> simp
@[simp] theorem settleState_freeCtr (d : Dev) : (settleState d).freeCtr = d.freeCtr := by unfold settleState; split <;> (try split) <;> simp

@[simp] theorem setDegraded_lnd (b : Nat) (v : Bool) (d : Dev) : (setDegraded b v d).lnd = d.lnd := by unfold setDegraded; split <;> simp
@[simp] theorem setDegraded_memc (b : Nat) (v : Bool) (d : Dev) : (setDegraded b v d).memc = d.memc := by unfold setDegraded; split <;> simp
@[simp] theorem setDegraded_rtr (b : Nat) (v : Bool) (d : Dev) : (setDegraded b v d).rtr = d.rtr := by unfold setDegraded; split <;> simp
@[simp] theorem setDegraded_nic (b : Nat) (v : Bool) (d : Dev) : (setDegraded b v d).nic = d.nic := by unfold setDegraded; split <;> simp
@[simp] theorem setDegraded_tim (b : Nat) (v : Bool) (d : Dev) : (setDegraded b v d).tim = d.tim := by unfold setDegraded; split <;> simp
@[simp] theorem setDegraded_ports (b : Nat) (v : Bool) (d : Dev) : (setDegraded b v d).ports = d.ports := by unfold setDegraded; split <;> simp
@[simp] theorem setDegraded_pwr (b : Nat) (v : Bool) (d : Dev) : (setDegraded b v d).pwr = d.pwr := by unfold setDegraded; split <;> simp
@[simp] theorem setDegraded_rst (b : Nat) (v : Bool) (d : Dev) : (setDegraded b v d).rst = d.rst := by unfold setDegraded; split <;> simp
@[simp] theorem setDegraded_fuses (b : Nat) (v : Bool) (d : Dev) : (setDegraded b v d).fuses = d.fuses := by unfold setDegraded; split <;> simp
@[simp] theorem setDegraded_fw (b : Nat) (v : Bool) (d : Dev) : (setDegraded b v d).fw = d.fw := by unfold setDegraded; split <;> simp
@[simp] theorem setDegraded_hif (b : Nat) (v : Bool) (d : Dev) : (setDegraded b v d).hif = d.hif := by unfold setDegraded; split <;> simp
@[simp] theorem setDegraded_ls (b : Nat) (v : Bool) (d : Dev) : (setDegraded b v d).ls = d.ls := by unfold setDegraded; split <;> simp
@[simp] theorem setDegraded_jtag (b : Nat) (v : Bool) (d : Dev) : (setDegraded b v d).jtag = d.jtag := by unfold setDegraded; split <;> simp
@[simp] theorem setDegraded_pins (b : Nat) (v : Bool) (d : Dev) : (setDegraded b v d).pins = d.pins := by unfold setDegraded; split <;> simp
@[simp] theorem setDegraded_regs (b : Nat) (v : Bool) (d : Dev) : (setDegraded b v d).regs = d.regs := by unfold setDegraded; split <;> simp
@[simp] theorem setDegraded_freeCtr (b : Nat) (v : Bool) (d : Dev) : (setDegraded b v d).freeCtr = d.freeCtr := by unfold setDegraded; split <;> simp

@[simp] theorem addDefect_lnd (kind origin unit : Nat) (detail : W64) (d : Dev) : (addDefect kind origin unit detail d).lnd = d.lnd := by unfold addDefect; split <;> rfl
@[simp] theorem addDefect_memc (kind origin unit : Nat) (detail : W64) (d : Dev) : (addDefect kind origin unit detail d).memc = d.memc := by unfold addDefect; split <;> rfl
@[simp] theorem addDefect_rtr (kind origin unit : Nat) (detail : W64) (d : Dev) : (addDefect kind origin unit detail d).rtr = d.rtr := by unfold addDefect; split <;> rfl
@[simp] theorem addDefect_nic (kind origin unit : Nat) (detail : W64) (d : Dev) : (addDefect kind origin unit detail d).nic = d.nic := by unfold addDefect; split <;> rfl
@[simp] theorem addDefect_tim (kind origin unit : Nat) (detail : W64) (d : Dev) : (addDefect kind origin unit detail d).tim = d.tim := by unfold addDefect; split <;> rfl
@[simp] theorem addDefect_ports (kind origin unit : Nat) (detail : W64) (d : Dev) : (addDefect kind origin unit detail d).ports = d.ports := by unfold addDefect; split <;> rfl
@[simp] theorem addDefect_pwr (kind origin unit : Nat) (detail : W64) (d : Dev) : (addDefect kind origin unit detail d).pwr = d.pwr := by unfold addDefect; split <;> rfl
@[simp] theorem addDefect_rst (kind origin unit : Nat) (detail : W64) (d : Dev) : (addDefect kind origin unit detail d).rst = d.rst := by unfold addDefect; split <;> rfl
@[simp] theorem addDefect_fuses (kind origin unit : Nat) (detail : W64) (d : Dev) : (addDefect kind origin unit detail d).fuses = d.fuses := by unfold addDefect; split <;> rfl
@[simp] theorem addDefect_kmd (kind origin unit : Nat) (detail : W64) (d : Dev) : (addDefect kind origin unit detail d).kmd = d.kmd := by unfold addDefect; split <;> rfl
@[simp] theorem addDefect_fw (kind origin unit : Nat) (detail : W64) (d : Dev) : (addDefect kind origin unit detail d).fw = d.fw := by unfold addDefect; split <;> rfl
@[simp] theorem addDefect_hif (kind origin unit : Nat) (detail : W64) (d : Dev) : (addDefect kind origin unit detail d).hif = d.hif := by unfold addDefect; split <;> rfl
@[simp] theorem addDefect_ls (kind origin unit : Nat) (detail : W64) (d : Dev) : (addDefect kind origin unit detail d).ls = d.ls := by unfold addDefect; split <;> rfl
@[simp] theorem addDefect_jtag (kind origin unit : Nat) (detail : W64) (d : Dev) : (addDefect kind origin unit detail d).jtag = d.jtag := by unfold addDefect; split <;> rfl
@[simp] theorem addDefect_pins (kind origin unit : Nat) (detail : W64) (d : Dev) : (addDefect kind origin unit detail d).pins = d.pins := by unfold addDefect; split <;> rfl
@[simp] theorem addDefect_cnt (kind origin unit : Nat) (detail : W64) (d : Dev) : (addDefect kind origin unit detail d).cnt = d.cnt := by unfold addDefect; split <;> rfl
@[simp] theorem addDefect_regs (kind origin unit : Nat) (detail : W64) (d : Dev) : (addDefect kind origin unit detail d).regs = d.regs := by unfold addDefect; split <;> rfl
@[simp] theorem addDefect_freeCtr (kind origin unit : Nat) (detail : W64) (d : Dev) : (addDefect kind origin unit detail d).freeCtr = d.freeCtr := by unfold addDefect; split <;> rfl

@[simp] theorem lndPut_memc (l : Nat) (x : Landing) (d : Dev) : (lndPut l x d).memc = d.memc := rfl
@[simp] theorem lndPut_rtr (l : Nat) (x : Landing) (d : Dev) : (lndPut l x d).rtr = d.rtr := rfl
@[simp] theorem lndPut_nic (l : Nat) (x : Landing) (d : Dev) : (lndPut l x d).nic = d.nic := rfl
@[simp] theorem lndPut_tim (l : Nat) (x : Landing) (d : Dev) : (lndPut l x d).tim = d.tim := rfl
@[simp] theorem lndPut_ports (l : Nat) (x : Landing) (d : Dev) : (lndPut l x d).ports = d.ports := rfl
@[simp] theorem lndPut_pwr (l : Nat) (x : Landing) (d : Dev) : (lndPut l x d).pwr = d.pwr := rfl
@[simp] theorem lndPut_rst (l : Nat) (x : Landing) (d : Dev) : (lndPut l x d).rst = d.rst := rfl
@[simp] theorem lndPut_health (l : Nat) (x : Landing) (d : Dev) : (lndPut l x d).health = d.health := rfl
@[simp] theorem lndPut_fuses (l : Nat) (x : Landing) (d : Dev) : (lndPut l x d).fuses = d.fuses := rfl
@[simp] theorem lndPut_kmd (l : Nat) (x : Landing) (d : Dev) : (lndPut l x d).kmd = d.kmd := rfl
@[simp] theorem lndPut_fw (l : Nat) (x : Landing) (d : Dev) : (lndPut l x d).fw = d.fw := rfl
@[simp] theorem lndPut_hif (l : Nat) (x : Landing) (d : Dev) : (lndPut l x d).hif = d.hif := rfl
@[simp] theorem lndPut_ls (l : Nat) (x : Landing) (d : Dev) : (lndPut l x d).ls = d.ls := rfl
@[simp] theorem lndPut_jtag (l : Nat) (x : Landing) (d : Dev) : (lndPut l x d).jtag = d.jtag := rfl
@[simp] theorem lndPut_pins (l : Nat) (x : Landing) (d : Dev) : (lndPut l x d).pins = d.pins := rfl
@[simp] theorem lndPut_cnt (l : Nat) (x : Landing) (d : Dev) : (lndPut l x d).cnt = d.cnt := rfl
@[simp] theorem lndPut_regs (l : Nat) (x : Landing) (d : Dev) : (lndPut l x d).regs = d.regs := rfl
@[simp] theorem lndPut_freeCtr (l : Nat) (x : Landing) (d : Dev) : (lndPut l x d).freeCtr = d.freeCtr := rfl

@[simp] theorem lndMod_memc (l : Nat) (f : Landing → Landing) (d : Dev) : (lndMod l f d).memc = d.memc := rfl
@[simp] theorem lndMod_rtr (l : Nat) (f : Landing → Landing) (d : Dev) : (lndMod l f d).rtr = d.rtr := rfl
@[simp] theorem lndMod_nic (l : Nat) (f : Landing → Landing) (d : Dev) : (lndMod l f d).nic = d.nic := rfl
@[simp] theorem lndMod_tim (l : Nat) (f : Landing → Landing) (d : Dev) : (lndMod l f d).tim = d.tim := rfl
@[simp] theorem lndMod_ports (l : Nat) (f : Landing → Landing) (d : Dev) : (lndMod l f d).ports = d.ports := rfl
@[simp] theorem lndMod_pwr (l : Nat) (f : Landing → Landing) (d : Dev) : (lndMod l f d).pwr = d.pwr := rfl
@[simp] theorem lndMod_rst (l : Nat) (f : Landing → Landing) (d : Dev) : (lndMod l f d).rst = d.rst := rfl
@[simp] theorem lndMod_health (l : Nat) (f : Landing → Landing) (d : Dev) : (lndMod l f d).health = d.health := rfl
@[simp] theorem lndMod_fuses (l : Nat) (f : Landing → Landing) (d : Dev) : (lndMod l f d).fuses = d.fuses := rfl
@[simp] theorem lndMod_kmd (l : Nat) (f : Landing → Landing) (d : Dev) : (lndMod l f d).kmd = d.kmd := rfl
@[simp] theorem lndMod_fw (l : Nat) (f : Landing → Landing) (d : Dev) : (lndMod l f d).fw = d.fw := rfl
@[simp] theorem lndMod_hif (l : Nat) (f : Landing → Landing) (d : Dev) : (lndMod l f d).hif = d.hif := rfl
@[simp] theorem lndMod_ls (l : Nat) (f : Landing → Landing) (d : Dev) : (lndMod l f d).ls = d.ls := rfl
@[simp] theorem lndMod_jtag (l : Nat) (f : Landing → Landing) (d : Dev) : (lndMod l f d).jtag = d.jtag := rfl
@[simp] theorem lndMod_pins (l : Nat) (f : Landing → Landing) (d : Dev) : (lndMod l f d).pins = d.pins := rfl
@[simp] theorem lndMod_cnt (l : Nat) (f : Landing → Landing) (d : Dev) : (lndMod l f d).cnt = d.cnt := rfl
@[simp] theorem lndMod_regs (l : Nat) (f : Landing → Landing) (d : Dev) : (lndMod l f d).regs = d.regs := rfl
@[simp] theorem lndMod_freeCtr (l : Nat) (f : Landing → Landing) (d : Dev) : (lndMod l f d).freeCtr = d.freeCtr := rfl

@[simp] theorem ctrPut_lnd (c : Nat) (v : Ctr) (d : Dev) : (ctrPut c v d).lnd = d.lnd := rfl
@[simp] theorem ctrPut_memc (c : Nat) (v : Ctr) (d : Dev) : (ctrPut c v d).memc = d.memc := rfl
@[simp] theorem ctrPut_rtr (c : Nat) (v : Ctr) (d : Dev) : (ctrPut c v d).rtr = d.rtr := rfl
@[simp] theorem ctrPut_tim (c : Nat) (v : Ctr) (d : Dev) : (ctrPut c v d).tim = d.tim := rfl
@[simp] theorem ctrPut_ports (c : Nat) (v : Ctr) (d : Dev) : (ctrPut c v d).ports = d.ports := rfl
@[simp] theorem ctrPut_pwr (c : Nat) (v : Ctr) (d : Dev) : (ctrPut c v d).pwr = d.pwr := rfl
@[simp] theorem ctrPut_rst (c : Nat) (v : Ctr) (d : Dev) : (ctrPut c v d).rst = d.rst := rfl
@[simp] theorem ctrPut_health (c : Nat) (v : Ctr) (d : Dev) : (ctrPut c v d).health = d.health := rfl
@[simp] theorem ctrPut_fuses (c : Nat) (v : Ctr) (d : Dev) : (ctrPut c v d).fuses = d.fuses := rfl
@[simp] theorem ctrPut_kmd (c : Nat) (v : Ctr) (d : Dev) : (ctrPut c v d).kmd = d.kmd := rfl
@[simp] theorem ctrPut_fw (c : Nat) (v : Ctr) (d : Dev) : (ctrPut c v d).fw = d.fw := rfl
@[simp] theorem ctrPut_hif (c : Nat) (v : Ctr) (d : Dev) : (ctrPut c v d).hif = d.hif := rfl
@[simp] theorem ctrPut_ls (c : Nat) (v : Ctr) (d : Dev) : (ctrPut c v d).ls = d.ls := rfl
@[simp] theorem ctrPut_jtag (c : Nat) (v : Ctr) (d : Dev) : (ctrPut c v d).jtag = d.jtag := rfl
@[simp] theorem ctrPut_pins (c : Nat) (v : Ctr) (d : Dev) : (ctrPut c v d).pins = d.pins := rfl
@[simp] theorem ctrPut_cnt (c : Nat) (v : Ctr) (d : Dev) : (ctrPut c v d).cnt = d.cnt := rfl
@[simp] theorem ctrPut_regs (c : Nat) (v : Ctr) (d : Dev) : (ctrPut c v d).regs = d.regs := rfl
@[simp] theorem ctrPut_freeCtr (c : Nat) (v : Ctr) (d : Dev) : (ctrPut c v d).freeCtr = d.freeCtr := rfl

@[simp] theorem ringPut_lnd (slot ring : Nat) (r : Ring) (d : Dev) : (ringPut slot ring r d).lnd = d.lnd := rfl
@[simp] theorem ringPut_memc (slot ring : Nat) (r : Ring) (d : Dev) : (ringPut slot ring r d).memc = d.memc := rfl
@[simp] theorem ringPut_rtr (slot ring : Nat) (r : Ring) (d : Dev) : (ringPut slot ring r d).rtr = d.rtr := rfl
@[simp] theorem ringPut_nic (slot ring : Nat) (r : Ring) (d : Dev) : (ringPut slot ring r d).nic = d.nic := rfl
@[simp] theorem ringPut_tim (slot ring : Nat) (r : Ring) (d : Dev) : (ringPut slot ring r d).tim = d.tim := rfl
@[simp] theorem ringPut_ports (slot ring : Nat) (r : Ring) (d : Dev) : (ringPut slot ring r d).ports = d.ports := rfl
@[simp] theorem ringPut_pwr (slot ring : Nat) (r : Ring) (d : Dev) : (ringPut slot ring r d).pwr = d.pwr := rfl
@[simp] theorem ringPut_rst (slot ring : Nat) (r : Ring) (d : Dev) : (ringPut slot ring r d).rst = d.rst := rfl
@[simp] theorem ringPut_health (slot ring : Nat) (r : Ring) (d : Dev) : (ringPut slot ring r d).health = d.health := rfl
@[simp] theorem ringPut_fuses (slot ring : Nat) (r : Ring) (d : Dev) : (ringPut slot ring r d).fuses = d.fuses := rfl
@[simp] theorem ringPut_kmd (slot ring : Nat) (r : Ring) (d : Dev) : (ringPut slot ring r d).kmd = d.kmd := rfl
@[simp] theorem ringPut_fw (slot ring : Nat) (r : Ring) (d : Dev) : (ringPut slot ring r d).fw = d.fw := rfl
@[simp] theorem ringPut_ls (slot ring : Nat) (r : Ring) (d : Dev) : (ringPut slot ring r d).ls = d.ls := rfl
@[simp] theorem ringPut_jtag (slot ring : Nat) (r : Ring) (d : Dev) : (ringPut slot ring r d).jtag = d.jtag := rfl
@[simp] theorem ringPut_pins (slot ring : Nat) (r : Ring) (d : Dev) : (ringPut slot ring r d).pins = d.pins := rfl
@[simp] theorem ringPut_cnt (slot ring : Nat) (r : Ring) (d : Dev) : (ringPut slot ring r d).cnt = d.cnt := rfl
@[simp] theorem ringPut_regs (slot ring : Nat) (r : Ring) (d : Dev) : (ringPut slot ring r d).regs = d.regs := rfl
@[simp] theorem ringPut_freeCtr (slot ring : Nat) (r : Ring) (d : Dev) : (ringPut slot ring r d).freeCtr = d.freeCtr := rfl

@[simp] theorem portPut_lnd (p : Nat) (x : Port) (d : Dev) : (portPut p x d).lnd = d.lnd := rfl
@[simp] theorem portPut_memc (p : Nat) (x : Port) (d : Dev) : (portPut p x d).memc = d.memc := rfl
@[simp] theorem portPut_rtr (p : Nat) (x : Port) (d : Dev) : (portPut p x d).rtr = d.rtr := rfl
@[simp] theorem portPut_nic (p : Nat) (x : Port) (d : Dev) : (portPut p x d).nic = d.nic := rfl
@[simp] theorem portPut_tim (p : Nat) (x : Port) (d : Dev) : (portPut p x d).tim = d.tim := rfl
@[simp] theorem portPut_pwr (p : Nat) (x : Port) (d : Dev) : (portPut p x d).pwr = d.pwr := rfl
@[simp] theorem portPut_rst (p : Nat) (x : Port) (d : Dev) : (portPut p x d).rst = d.rst := rfl
@[simp] theorem portPut_health (p : Nat) (x : Port) (d : Dev) : (portPut p x d).health = d.health := rfl
@[simp] theorem portPut_fuses (p : Nat) (x : Port) (d : Dev) : (portPut p x d).fuses = d.fuses := rfl
@[simp] theorem portPut_kmd (p : Nat) (x : Port) (d : Dev) : (portPut p x d).kmd = d.kmd := rfl
@[simp] theorem portPut_fw (p : Nat) (x : Port) (d : Dev) : (portPut p x d).fw = d.fw := rfl
@[simp] theorem portPut_hif (p : Nat) (x : Port) (d : Dev) : (portPut p x d).hif = d.hif := rfl
@[simp] theorem portPut_ls (p : Nat) (x : Port) (d : Dev) : (portPut p x d).ls = d.ls := rfl
@[simp] theorem portPut_jtag (p : Nat) (x : Port) (d : Dev) : (portPut p x d).jtag = d.jtag := rfl
@[simp] theorem portPut_pins (p : Nat) (x : Port) (d : Dev) : (portPut p x d).pins = d.pins := rfl
@[simp] theorem portPut_cnt (p : Nat) (x : Port) (d : Dev) : (portPut p x d).cnt = d.cnt := rfl
@[simp] theorem portPut_regs (p : Nat) (x : Port) (d : Dev) : (portPut p x d).regs = d.regs := rfl
@[simp] theorem portPut_freeCtr (p : Nat) (x : Port) (d : Dev) : (portPut p x d).freeCtr = d.freeCtr := rfl

@[simp] theorem portMod_lnd (p : Nat) (f : Port → Port) (d : Dev) : (portMod p f d).lnd = d.lnd := rfl
@[simp] theorem portMod_memc (p : Nat) (f : Port → Port) (d : Dev) : (portMod p f d).memc = d.memc := rfl
@[simp] theorem portMod_rtr (p : Nat) (f : Port → Port) (d : Dev) : (portMod p f d).rtr = d.rtr := rfl
@[simp] theorem portMod_nic (p : Nat) (f : Port → Port) (d : Dev) : (portMod p f d).nic = d.nic := rfl
@[simp] theorem portMod_tim (p : Nat) (f : Port → Port) (d : Dev) : (portMod p f d).tim = d.tim := rfl
@[simp] theorem portMod_pwr (p : Nat) (f : Port → Port) (d : Dev) : (portMod p f d).pwr = d.pwr := rfl
@[simp] theorem portMod_rst (p : Nat) (f : Port → Port) (d : Dev) : (portMod p f d).rst = d.rst := rfl
@[simp] theorem portMod_health (p : Nat) (f : Port → Port) (d : Dev) : (portMod p f d).health = d.health := rfl
@[simp] theorem portMod_fuses (p : Nat) (f : Port → Port) (d : Dev) : (portMod p f d).fuses = d.fuses := rfl
@[simp] theorem portMod_kmd (p : Nat) (f : Port → Port) (d : Dev) : (portMod p f d).kmd = d.kmd := rfl
@[simp] theorem portMod_fw (p : Nat) (f : Port → Port) (d : Dev) : (portMod p f d).fw = d.fw := rfl
@[simp] theorem portMod_hif (p : Nat) (f : Port → Port) (d : Dev) : (portMod p f d).hif = d.hif := rfl
@[simp] theorem portMod_ls (p : Nat) (f : Port → Port) (d : Dev) : (portMod p f d).ls = d.ls := rfl
@[simp] theorem portMod_jtag (p : Nat) (f : Port → Port) (d : Dev) : (portMod p f d).jtag = d.jtag := rfl
@[simp] theorem portMod_pins (p : Nat) (f : Port → Port) (d : Dev) : (portMod p f d).pins = d.pins := rfl
@[simp] theorem portMod_cnt (p : Nat) (f : Port → Port) (d : Dev) : (portMod p f d).cnt = d.cnt := rfl
@[simp] theorem portMod_regs (p : Nat) (f : Port → Port) (d : Dev) : (portMod p f d).regs = d.regs := rfl
@[simp] theorem portMod_freeCtr (p : Nat) (f : Port → Port) (d : Dev) : (portMod p f d).freeCtr = d.freeCtr := rfl

@[simp] theorem limMod_lnd (f : Limits → Limits) (d : Dev) : (limMod f d).lnd = d.lnd := rfl
@[simp] theorem limMod_memc (f : Limits → Limits) (d : Dev) : (limMod f d).memc = d.memc := rfl
@[simp] theorem limMod_rtr (f : Limits → Limits) (d : Dev) : (limMod f d).rtr = d.rtr := rfl
@[simp] theorem limMod_nic (f : Limits → Limits) (d : Dev) : (limMod f d).nic = d.nic := rfl
@[simp] theorem limMod_tim (f : Limits → Limits) (d : Dev) : (limMod f d).tim = d.tim := rfl
@[simp] theorem limMod_ports (f : Limits → Limits) (d : Dev) : (limMod f d).ports = d.ports := rfl
@[simp] theorem limMod_rst (f : Limits → Limits) (d : Dev) : (limMod f d).rst = d.rst := rfl
@[simp] theorem limMod_health (f : Limits → Limits) (d : Dev) : (limMod f d).health = d.health := rfl
@[simp] theorem limMod_fuses (f : Limits → Limits) (d : Dev) : (limMod f d).fuses = d.fuses := rfl
@[simp] theorem limMod_kmd (f : Limits → Limits) (d : Dev) : (limMod f d).kmd = d.kmd := rfl
@[simp] theorem limMod_fw (f : Limits → Limits) (d : Dev) : (limMod f d).fw = d.fw := rfl
@[simp] theorem limMod_hif (f : Limits → Limits) (d : Dev) : (limMod f d).hif = d.hif := rfl
@[simp] theorem limMod_ls (f : Limits → Limits) (d : Dev) : (limMod f d).ls = d.ls := rfl
@[simp] theorem limMod_jtag (f : Limits → Limits) (d : Dev) : (limMod f d).jtag = d.jtag := rfl
@[simp] theorem limMod_pins (f : Limits → Limits) (d : Dev) : (limMod f d).pins = d.pins := rfl
@[simp] theorem limMod_cnt (f : Limits → Limits) (d : Dev) : (limMod f d).cnt = d.cnt := rfl
@[simp] theorem limMod_regs (f : Limits → Limits) (d : Dev) : (limMod f d).regs = d.regs := rfl
@[simp] theorem limMod_freeCtr (f : Limits → Limits) (d : Dev) : (limMod f d).freeCtr = d.freeCtr := rfl

@[simp] theorem coolMod_lnd (f : Cool → Cool) (d : Dev) : (coolMod f d).lnd = d.lnd := rfl
@[simp] theorem coolMod_memc (f : Cool → Cool) (d : Dev) : (coolMod f d).memc = d.memc := rfl
@[simp] theorem coolMod_rtr (f : Cool → Cool) (d : Dev) : (coolMod f d).rtr = d.rtr := rfl
@[simp] theorem coolMod_nic (f : Cool → Cool) (d : Dev) : (coolMod f d).nic = d.nic := rfl
@[simp] theorem coolMod_tim (f : Cool → Cool) (d : Dev) : (coolMod f d).tim = d.tim := rfl
@[simp] theorem coolMod_ports (f : Cool → Cool) (d : Dev) : (coolMod f d).ports = d.ports := rfl
@[simp] theorem coolMod_rst (f : Cool → Cool) (d : Dev) : (coolMod f d).rst = d.rst := rfl
@[simp] theorem coolMod_health (f : Cool → Cool) (d : Dev) : (coolMod f d).health = d.health := rfl
@[simp] theorem coolMod_fuses (f : Cool → Cool) (d : Dev) : (coolMod f d).fuses = d.fuses := rfl
@[simp] theorem coolMod_kmd (f : Cool → Cool) (d : Dev) : (coolMod f d).kmd = d.kmd := rfl
@[simp] theorem coolMod_fw (f : Cool → Cool) (d : Dev) : (coolMod f d).fw = d.fw := rfl
@[simp] theorem coolMod_hif (f : Cool → Cool) (d : Dev) : (coolMod f d).hif = d.hif := rfl
@[simp] theorem coolMod_ls (f : Cool → Cool) (d : Dev) : (coolMod f d).ls = d.ls := rfl
@[simp] theorem coolMod_jtag (f : Cool → Cool) (d : Dev) : (coolMod f d).jtag = d.jtag := rfl
@[simp] theorem coolMod_pins (f : Cool → Cool) (d : Dev) : (coolMod f d).pins = d.pins := rfl
@[simp] theorem coolMod_cnt (f : Cool → Cool) (d : Dev) : (coolMod f d).cnt = d.cnt := rfl
@[simp] theorem coolMod_regs (f : Cool → Cool) (d : Dev) : (coolMod f d).regs = d.regs := rfl
@[simp] theorem coolMod_freeCtr (f : Cool → Cool) (d : Dev) : (coolMod f d).freeCtr = d.freeCtr := rfl

@[simp] theorem supMod_lnd (f : Supply → Supply) (d : Dev) : (supMod f d).lnd = d.lnd := rfl
@[simp] theorem supMod_memc (f : Supply → Supply) (d : Dev) : (supMod f d).memc = d.memc := rfl
@[simp] theorem supMod_rtr (f : Supply → Supply) (d : Dev) : (supMod f d).rtr = d.rtr := rfl
@[simp] theorem supMod_nic (f : Supply → Supply) (d : Dev) : (supMod f d).nic = d.nic := rfl
@[simp] theorem supMod_tim (f : Supply → Supply) (d : Dev) : (supMod f d).tim = d.tim := rfl
@[simp] theorem supMod_ports (f : Supply → Supply) (d : Dev) : (supMod f d).ports = d.ports := rfl
@[simp] theorem supMod_rst (f : Supply → Supply) (d : Dev) : (supMod f d).rst = d.rst := rfl
@[simp] theorem supMod_health (f : Supply → Supply) (d : Dev) : (supMod f d).health = d.health := rfl
@[simp] theorem supMod_fuses (f : Supply → Supply) (d : Dev) : (supMod f d).fuses = d.fuses := rfl
@[simp] theorem supMod_kmd (f : Supply → Supply) (d : Dev) : (supMod f d).kmd = d.kmd := rfl
@[simp] theorem supMod_fw (f : Supply → Supply) (d : Dev) : (supMod f d).fw = d.fw := rfl
@[simp] theorem supMod_hif (f : Supply → Supply) (d : Dev) : (supMod f d).hif = d.hif := rfl
@[simp] theorem supMod_ls (f : Supply → Supply) (d : Dev) : (supMod f d).ls = d.ls := rfl
@[simp] theorem supMod_jtag (f : Supply → Supply) (d : Dev) : (supMod f d).jtag = d.jtag := rfl
@[simp] theorem supMod_pins (f : Supply → Supply) (d : Dev) : (supMod f d).pins = d.pins := rfl
@[simp] theorem supMod_cnt (f : Supply → Supply) (d : Dev) : (supMod f d).cnt = d.cnt := rfl
@[simp] theorem supMod_regs (f : Supply → Supply) (d : Dev) : (supMod f d).regs = d.regs := rfl
@[simp] theorem supMod_freeCtr (f : Supply → Supply) (d : Dev) : (supMod f d).freeCtr = d.freeCtr := rfl

@[simp] theorem galMod_lnd (g : Nat) (f : Gal → Gal) (d : Dev) : (galMod g f d).lnd = d.lnd := rfl
@[simp] theorem galMod_memc (g : Nat) (f : Gal → Gal) (d : Dev) : (galMod g f d).memc = d.memc := rfl
@[simp] theorem galMod_rtr (g : Nat) (f : Gal → Gal) (d : Dev) : (galMod g f d).rtr = d.rtr := rfl
@[simp] theorem galMod_nic (g : Nat) (f : Gal → Gal) (d : Dev) : (galMod g f d).nic = d.nic := rfl
@[simp] theorem galMod_tim (g : Nat) (f : Gal → Gal) (d : Dev) : (galMod g f d).tim = d.tim := rfl
@[simp] theorem galMod_ports (g : Nat) (f : Gal → Gal) (d : Dev) : (galMod g f d).ports = d.ports := rfl
@[simp] theorem galMod_rst (g : Nat) (f : Gal → Gal) (d : Dev) : (galMod g f d).rst = d.rst := rfl
@[simp] theorem galMod_health (g : Nat) (f : Gal → Gal) (d : Dev) : (galMod g f d).health = d.health := rfl
@[simp] theorem galMod_fuses (g : Nat) (f : Gal → Gal) (d : Dev) : (galMod g f d).fuses = d.fuses := rfl
@[simp] theorem galMod_kmd (g : Nat) (f : Gal → Gal) (d : Dev) : (galMod g f d).kmd = d.kmd := rfl
@[simp] theorem galMod_fw (g : Nat) (f : Gal → Gal) (d : Dev) : (galMod g f d).fw = d.fw := rfl
@[simp] theorem galMod_hif (g : Nat) (f : Gal → Gal) (d : Dev) : (galMod g f d).hif = d.hif := rfl
@[simp] theorem galMod_ls (g : Nat) (f : Gal → Gal) (d : Dev) : (galMod g f d).ls = d.ls := rfl
@[simp] theorem galMod_jtag (g : Nat) (f : Gal → Gal) (d : Dev) : (galMod g f d).jtag = d.jtag := rfl
@[simp] theorem galMod_pins (g : Nat) (f : Gal → Gal) (d : Dev) : (galMod g f d).pins = d.pins := rfl
@[simp] theorem galMod_cnt (g : Nat) (f : Gal → Gal) (d : Dev) : (galMod g f d).cnt = d.cnt := rfl
@[simp] theorem galMod_regs (g : Nat) (f : Gal → Gal) (d : Dev) : (galMod g f d).regs = d.regs := rfl
@[simp] theorem galMod_freeCtr (g : Nat) (f : Gal → Gal) (d : Dev) : (galMod g f d).freeCtr = d.freeCtr := rfl

@[simp] theorem advance_lnd (n : Nat) (d : Dev) : (advance n d).lnd = d.lnd := by unfold advance; split <;> rfl
@[simp] theorem advance_memc (n : Nat) (d : Dev) : (advance n d).memc = d.memc := by unfold advance; split <;> rfl
@[simp] theorem advance_rtr (n : Nat) (d : Dev) : (advance n d).rtr = d.rtr := by unfold advance; split <;> rfl
@[simp] theorem advance_nic (n : Nat) (d : Dev) : (advance n d).nic = d.nic := by unfold advance; split <;> rfl
@[simp] theorem advance_ports (n : Nat) (d : Dev) : (advance n d).ports = d.ports := by unfold advance; split <;> rfl
@[simp] theorem advance_pwr (n : Nat) (d : Dev) : (advance n d).pwr = d.pwr := by unfold advance; split <;> rfl
@[simp] theorem advance_rst (n : Nat) (d : Dev) : (advance n d).rst = d.rst := by unfold advance; split <;> rfl
@[simp] theorem advance_health (n : Nat) (d : Dev) : (advance n d).health = d.health := by unfold advance; split <;> rfl
@[simp] theorem advance_fuses (n : Nat) (d : Dev) : (advance n d).fuses = d.fuses := by unfold advance; split <;> rfl
@[simp] theorem advance_kmd (n : Nat) (d : Dev) : (advance n d).kmd = d.kmd := by unfold advance; split <;> rfl
@[simp] theorem advance_fw (n : Nat) (d : Dev) : (advance n d).fw = d.fw := by unfold advance; split <;> rfl
@[simp] theorem advance_hif (n : Nat) (d : Dev) : (advance n d).hif = d.hif := by unfold advance; split <;> rfl
@[simp] theorem advance_ls (n : Nat) (d : Dev) : (advance n d).ls = d.ls := by unfold advance; split <;> rfl
@[simp] theorem advance_jtag (n : Nat) (d : Dev) : (advance n d).jtag = d.jtag := by unfold advance; split <;> rfl
@[simp] theorem advance_pins (n : Nat) (d : Dev) : (advance n d).pins = d.pins := by unfold advance; split <;> rfl
@[simp] theorem advance_cnt (n : Nat) (d : Dev) : (advance n d).cnt = d.cnt := by unfold advance; split <;> rfl
@[simp] theorem advance_regs (n : Nat) (d : Dev) : (advance n d).regs = d.regs := by unfold advance; split <;> rfl
@[simp] theorem advance_freeCtr (n : Nat) (d : Dev) : (advance n d).freeCtr = d.freeCtr := by unfold advance; split <;> rfl

@[simp] theorem advanceTo_lnd (n : Nat) (d : Dev) : (advanceTo n d).lnd = d.lnd := by unfold advanceTo; simp
@[simp] theorem advanceTo_memc (n : Nat) (d : Dev) : (advanceTo n d).memc = d.memc := by unfold advanceTo; simp
@[simp] theorem advanceTo_rtr (n : Nat) (d : Dev) : (advanceTo n d).rtr = d.rtr := by unfold advanceTo; simp
@[simp] theorem advanceTo_nic (n : Nat) (d : Dev) : (advanceTo n d).nic = d.nic := by unfold advanceTo; simp
@[simp] theorem advanceTo_ports (n : Nat) (d : Dev) : (advanceTo n d).ports = d.ports := by unfold advanceTo; simp
@[simp] theorem advanceTo_pwr (n : Nat) (d : Dev) : (advanceTo n d).pwr = d.pwr := by unfold advanceTo; simp
@[simp] theorem advanceTo_rst (n : Nat) (d : Dev) : (advanceTo n d).rst = d.rst := by unfold advanceTo; simp
@[simp] theorem advanceTo_health (n : Nat) (d : Dev) : (advanceTo n d).health = d.health := by unfold advanceTo; simp
@[simp] theorem advanceTo_fuses (n : Nat) (d : Dev) : (advanceTo n d).fuses = d.fuses := by unfold advanceTo; simp
@[simp] theorem advanceTo_kmd (n : Nat) (d : Dev) : (advanceTo n d).kmd = d.kmd := by unfold advanceTo; simp
@[simp] theorem advanceTo_fw (n : Nat) (d : Dev) : (advanceTo n d).fw = d.fw := by unfold advanceTo; simp
@[simp] theorem advanceTo_hif (n : Nat) (d : Dev) : (advanceTo n d).hif = d.hif := by unfold advanceTo; simp
@[simp] theorem advanceTo_ls (n : Nat) (d : Dev) : (advanceTo n d).ls = d.ls := by unfold advanceTo; simp
@[simp] theorem advanceTo_jtag (n : Nat) (d : Dev) : (advanceTo n d).jtag = d.jtag := by unfold advanceTo; simp
@[simp] theorem advanceTo_pins (n : Nat) (d : Dev) : (advanceTo n d).pins = d.pins := by unfold advanceTo; simp
@[simp] theorem advanceTo_cnt (n : Nat) (d : Dev) : (advanceTo n d).cnt = d.cnt := by unfold advanceTo; simp
@[simp] theorem advanceTo_regs (n : Nat) (d : Dev) : (advanceTo n d).regs = d.regs := by unfold advanceTo; simp
@[simp] theorem advanceTo_freeCtr (n : Nat) (d : Dev) : (advanceTo n d).freeCtr = d.freeCtr := by unfold advanceTo; simp

@[simp] theorem advanceCount_lnd (n : Nat) (d : Dev) : (advanceCount n d).lnd = d.lnd := by unfold advanceCount; split <;> rfl
@[simp] theorem advanceCount_memc (n : Nat) (d : Dev) : (advanceCount n d).memc = d.memc := by unfold advanceCount; split <;> rfl
@[simp] theorem advanceCount_rtr (n : Nat) (d : Dev) : (advanceCount n d).rtr = d.rtr := by unfold advanceCount; split <;> rfl
@[simp] theorem advanceCount_nic (n : Nat) (d : Dev) : (advanceCount n d).nic = d.nic := by unfold advanceCount; split <;> rfl
@[simp] theorem advanceCount_ports (n : Nat) (d : Dev) : (advanceCount n d).ports = d.ports := by unfold advanceCount; split <;> rfl
@[simp] theorem advanceCount_pwr (n : Nat) (d : Dev) : (advanceCount n d).pwr = d.pwr := by unfold advanceCount; split <;> rfl
@[simp] theorem advanceCount_rst (n : Nat) (d : Dev) : (advanceCount n d).rst = d.rst := by unfold advanceCount; split <;> rfl
@[simp] theorem advanceCount_health (n : Nat) (d : Dev) : (advanceCount n d).health = d.health := by unfold advanceCount; split <;> rfl
@[simp] theorem advanceCount_fuses (n : Nat) (d : Dev) : (advanceCount n d).fuses = d.fuses := by unfold advanceCount; split <;> rfl
@[simp] theorem advanceCount_kmd (n : Nat) (d : Dev) : (advanceCount n d).kmd = d.kmd := by unfold advanceCount; split <;> rfl
@[simp] theorem advanceCount_fw (n : Nat) (d : Dev) : (advanceCount n d).fw = d.fw := by unfold advanceCount; split <;> rfl
@[simp] theorem advanceCount_hif (n : Nat) (d : Dev) : (advanceCount n d).hif = d.hif := by unfold advanceCount; split <;> rfl
@[simp] theorem advanceCount_ls (n : Nat) (d : Dev) : (advanceCount n d).ls = d.ls := by unfold advanceCount; split <;> rfl
@[simp] theorem advanceCount_jtag (n : Nat) (d : Dev) : (advanceCount n d).jtag = d.jtag := by unfold advanceCount; split <;> rfl
@[simp] theorem advanceCount_pins (n : Nat) (d : Dev) : (advanceCount n d).pins = d.pins := by unfold advanceCount; split <;> rfl
@[simp] theorem advanceCount_cnt (n : Nat) (d : Dev) : (advanceCount n d).cnt = d.cnt := by unfold advanceCount; split <;> rfl
@[simp] theorem advanceCount_regs (n : Nat) (d : Dev) : (advanceCount n d).regs = d.regs := by unfold advanceCount; split <;> rfl
@[simp] theorem advanceCount_freeCtr (n : Nat) (d : Dev) : (advanceCount n d).freeCtr = d.freeCtr := by unfold advanceCount; split <;> rfl

@[simp] theorem advanceWindow_lnd (n : Nat) (d : Dev) : (advanceWindow n d).lnd = d.lnd := by unfold advanceWindow; simp
@[simp] theorem advanceWindow_memc (n : Nat) (d : Dev) : (advanceWindow n d).memc = d.memc := by unfold advanceWindow; simp
@[simp] theorem advanceWindow_rtr (n : Nat) (d : Dev) : (advanceWindow n d).rtr = d.rtr := by unfold advanceWindow; simp
@[simp] theorem advanceWindow_nic (n : Nat) (d : Dev) : (advanceWindow n d).nic = d.nic := by unfold advanceWindow; simp
@[simp] theorem advanceWindow_ports (n : Nat) (d : Dev) : (advanceWindow n d).ports = d.ports := by unfold advanceWindow; simp
@[simp] theorem advanceWindow_pwr (n : Nat) (d : Dev) : (advanceWindow n d).pwr = d.pwr := by unfold advanceWindow; simp
@[simp] theorem advanceWindow_rst (n : Nat) (d : Dev) : (advanceWindow n d).rst = d.rst := by unfold advanceWindow; simp
@[simp] theorem advanceWindow_health (n : Nat) (d : Dev) : (advanceWindow n d).health = d.health := by unfold advanceWindow; simp
@[simp] theorem advanceWindow_fuses (n : Nat) (d : Dev) : (advanceWindow n d).fuses = d.fuses := by unfold advanceWindow; simp
@[simp] theorem advanceWindow_kmd (n : Nat) (d : Dev) : (advanceWindow n d).kmd = d.kmd := by unfold advanceWindow; simp
@[simp] theorem advanceWindow_fw (n : Nat) (d : Dev) : (advanceWindow n d).fw = d.fw := by unfold advanceWindow; simp
@[simp] theorem advanceWindow_hif (n : Nat) (d : Dev) : (advanceWindow n d).hif = d.hif := by unfold advanceWindow; simp
@[simp] theorem advanceWindow_ls (n : Nat) (d : Dev) : (advanceWindow n d).ls = d.ls := by unfold advanceWindow; simp
@[simp] theorem advanceWindow_jtag (n : Nat) (d : Dev) : (advanceWindow n d).jtag = d.jtag := by unfold advanceWindow; simp
@[simp] theorem advanceWindow_pins (n : Nat) (d : Dev) : (advanceWindow n d).pins = d.pins := by unfold advanceWindow; simp
@[simp] theorem advanceWindow_cnt (n : Nat) (d : Dev) : (advanceWindow n d).cnt = d.cnt := by unfold advanceWindow; simp
@[simp] theorem advanceWindow_regs (n : Nat) (d : Dev) : (advanceWindow n d).regs = d.regs := by unfold advanceWindow; simp
@[simp] theorem advanceWindow_freeCtr (n : Nat) (d : Dev) : (advanceWindow n d).freeCtr = d.freeCtr := by unfold advanceWindow; simp

@[simp] theorem toBoundary_lnd (n k : Nat) (d : Dev) : (toBoundary n k d).lnd = d.lnd := by unfold toBoundary; split <;> simp
@[simp] theorem toBoundary_memc (n k : Nat) (d : Dev) : (toBoundary n k d).memc = d.memc := by unfold toBoundary; split <;> simp
@[simp] theorem toBoundary_rtr (n k : Nat) (d : Dev) : (toBoundary n k d).rtr = d.rtr := by unfold toBoundary; split <;> simp
@[simp] theorem toBoundary_nic (n k : Nat) (d : Dev) : (toBoundary n k d).nic = d.nic := by unfold toBoundary; split <;> simp
@[simp] theorem toBoundary_ports (n k : Nat) (d : Dev) : (toBoundary n k d).ports = d.ports := by unfold toBoundary; split <;> simp
@[simp] theorem toBoundary_pwr (n k : Nat) (d : Dev) : (toBoundary n k d).pwr = d.pwr := by unfold toBoundary; split <;> simp
@[simp] theorem toBoundary_rst (n k : Nat) (d : Dev) : (toBoundary n k d).rst = d.rst := by unfold toBoundary; split <;> simp
@[simp] theorem toBoundary_health (n k : Nat) (d : Dev) : (toBoundary n k d).health = d.health := by unfold toBoundary; split <;> simp
@[simp] theorem toBoundary_fuses (n k : Nat) (d : Dev) : (toBoundary n k d).fuses = d.fuses := by unfold toBoundary; split <;> simp
@[simp] theorem toBoundary_kmd (n k : Nat) (d : Dev) : (toBoundary n k d).kmd = d.kmd := by unfold toBoundary; split <;> simp
@[simp] theorem toBoundary_fw (n k : Nat) (d : Dev) : (toBoundary n k d).fw = d.fw := by unfold toBoundary; split <;> simp
@[simp] theorem toBoundary_hif (n k : Nat) (d : Dev) : (toBoundary n k d).hif = d.hif := by unfold toBoundary; split <;> simp
@[simp] theorem toBoundary_ls (n k : Nat) (d : Dev) : (toBoundary n k d).ls = d.ls := by unfold toBoundary; split <;> simp
@[simp] theorem toBoundary_jtag (n k : Nat) (d : Dev) : (toBoundary n k d).jtag = d.jtag := by unfold toBoundary; split <;> simp
@[simp] theorem toBoundary_pins (n k : Nat) (d : Dev) : (toBoundary n k d).pins = d.pins := by unfold toBoundary; split <;> simp
@[simp] theorem toBoundary_cnt (n k : Nat) (d : Dev) : (toBoundary n k d).cnt = d.cnt := by unfold toBoundary; split <;> simp
@[simp] theorem toBoundary_regs (n k : Nat) (d : Dev) : (toBoundary n k d).regs = d.regs := by unfold toBoundary; split <;> simp
@[simp] theorem toBoundary_freeCtr (n k : Nat) (d : Dev) : (toBoundary n k d).freeCtr = d.freeCtr := by unfold toBoundary; split <;> simp

/-! ### Reads after writes -/

@[simp] theorem lndGet_lndPut_same (l : Nat) (x : Landing) (d : Dev) : lndGet (lndPut l x d) l = x := by
  simp [lndGet, lndPut]

theorem lndGet_lndPut (l m : Nat) (x : Landing) (d : Dev) :
    lndGet (lndPut l x d) m = if m = l then x else lndGet d m := spGet_spPut _ l x d.lnd m

@[simp] theorem lndGet_lndMod_same (l : Nat) (f : Landing → Landing) (d : Dev) :
    lndGet (lndMod l f d) l = f (lndGet d l) := by simp [lndMod]

theorem lndGet_lndMod (l m : Nat) (f : Landing → Landing) (d : Dev) :
    lndGet (lndMod l f d) m = if m = l then f (lndGet d l) else lndGet d m := lndGet_lndPut l m _ d

theorem lndGet_congr {d e : Dev} (h : d.lnd = e.lnd) (l : Nat) : lndGet d l = lndGet e l := by simp [lndGet, h]

theorem cntGet_cntAdd (off n : Nat) (d : Dev) (k : Nat) :
    cntGet (cntAdd off n d) k =
      if k = off then BitVec.ofNat 64 (satAdd (2 ^ 64 - 1) (cntGet d off).toNat n) else cntGet d k :=
  spGet_spMod 0 off (fun v => BitVec.ofNat 64 (satAdd (2 ^ 64 - 1) v.toNat n)) d.cnt k

theorem cntGet_cntInc (off : Nat) (d : Dev) (k : Nat) :
    cntGet (cntInc off d) k =
      if k = off then BitVec.ofNat 64 (satAdd (2 ^ 64 - 1) (cntGet d off).toNat 1) else cntGet d k :=
  cntGet_cntAdd off 1 d k

theorem cntGet_congr {d e : Dev} (h : d.cnt = e.cnt) (k : Nat) : cntGet d k = cntGet e k := by simp [cntGet, h]

theorem regGet_regPut (off : Nat) (v : W64) (d : Dev) (k : Nat) :
    regGet (regPut off v d) k = if k = off then v else regGet d k := spGet_spPut 0 off v d.regs k

theorem ctrGet_ctrPut (c : Nat) (v : Ctr) (d : Dev) (k : Nat) :
    ctrGet (ctrPut c v d) k = if k = c then v else ctrGet d k := spGet_spPut _ c v d.nic.ctr k

theorem portGet_portPut (p : Nat) (x : Port) (d : Dev) (q : Nat) :
    portGet (portPut p x d) q = if q = p then x else portGet d q := spGet_spPut _ p x d.ports.port q

theorem portGet_portMod (p : Nat) (f : Port → Port) (d : Dev) (q : Nat) :
    portGet (portMod p f d) q = if q = p then f (portGet d p) else portGet d q := portGet_portPut p _ d q

theorem portGet_congr {d e : Dev} (h : d.ports = e.ports) (p : Nat) : portGet d p = portGet e p := by simp [portGet, h]

theorem galGet_galMod (g : Nat) (f : Gal → Gal) (d : Dev) (k : Nat) :
    galGet (galMod g f d) k = if k = g then f (galGet d g) else galGet d k := spGet_spMod _ g f d.pwr.gal k

/-! ### Changes to one part of the state -/

@[simp] theorem onDev_mem (f : Dev → Dev) (s : State) : (onDev f s).mem = s.mem := rfl
@[simp] theorem onDev_pending (f : Dev → Dev) (s : State) : (onDev f s).pending = s.pending := rfl
@[simp] theorem onDev_dev (f : Dev → Dev) (s : State) : (onDev f s).dev = f s.dev := rfl
@[simp] theorem onLnd_mem (l : Nat) (f : Landing → Landing) (s : State) : (onLnd l f s).mem = s.mem := rfl
@[simp] theorem onLnd_pending (l : Nat) (f : Landing → Landing) (s : State) : (onLnd l f s).pending = s.pending := rfl
@[simp] theorem onLnd_dev (l : Nat) (f : Landing → Landing) (s : State) : (onLnd l f s).dev = lndMod l f s.dev := rfl
@[simp] theorem onRegs_mem (l : Nat) (f : LRegs → LRegs) (s : State) : (onRegs l f s).mem = s.mem := rfl
@[simp] theorem onRegs_pending (l : Nat) (f : LRegs → LRegs) (s : State) : (onRegs l f s).pending = s.pending := rfl
@[simp] theorem onPipe_mem (l : Nat) (f : LPipe → LPipe) (s : State) : (onPipe l f s).mem = s.mem := rfl
@[simp] theorem onPipe_pending (l : Nat) (f : LPipe → LPipe) (s : State) : (onPipe l f s).pending = s.pending := rfl

theorem onRegs_dev (l : Nat) (f : LRegs → LRegs) (s : State) :
    (onRegs l f s).dev = lndMod l (fun x => { x with regs := f x.regs }) s.dev := rfl

theorem onPipe_dev (l : Nat) (f : LPipe → LPipe) (s : State) :
    (onPipe l f s).dev = lndMod l (fun x => { x with pipe := f x.pipe }) s.dev := rfl

/-! ### Commands that wait on a clock or on the endpoint -/

theorem clocked_run {f : State → State} {s : State} (h : s.dev.rst.clocksStopped = false) : clocked f s = f s := by
  simp [clocked, h]

theorem clocked_stopped {f : State → State} {s : State} (h : s.dev.rst.clocksStopped = true) : clocked f s = s := by
  simp [clocked, h]

theorem fromHost_up {f : State → State} {s : State} (h : hifUp s.dev = true) : fromHost f s = f s := by simp [fromHost, h]

/-! ### Registers of a landing -/

theorem regS_putS (i : Nat) (v : W64) (r : LRegs) (j : Nat) : regS (putS i v r) j = if j = i then v else regS r j :=
  spGet_spPut 0 i v r.s j

theorem regV_putV (i : Nat) (v : VWord) (r : LRegs) (j : Nat) : regV (putV i v r) j = if j = i then v else regV r j :=
  spGet_spPut 0 i v r.v j

/-- Writes of p0 have no effect; every other predicate register reads back what was written. -/
theorem regP_putP (i : Nat) (v : W64) (r : LRegs) (j : Nat) :
    regP (putP i v r) j = if j = i ∧ i ≠ 0 then v else regP r j := by
  unfold putP regP
  by_cases hi : i = 0
  · simp [hi]
  · by_cases hj : j = 0
    · subst hj
      have : ¬ (0 = i) := fun h => hi h.symm
      simp [this]
    · simp only [hi, hj, if_false]
      rw [spGet_spPut]
      simp [hi]

theorem regAcc_putAcc (i : Nat) (t : Tile) (r : LRegs) (j : Nat) :
    regAcc (putAcc i t r) j = if j = i then t else regAcc r j := spGet_spPut [] i t r.acc j

end Sys2Proof.Machine
end

