-- ==== Sys2Proof/Laws/Cycle.lean ====
section
/-! SUPPORT. What a landing cycle does when its bundle issues: one lemma for the cycle, one for the bundle of a single
operation of each kind. -/

namespace Sys2Proof.Machine

theorem lsFrozen_congr {d e : Dev} (h : d.ls = e.ls) (ctx : Nat) : lsFrozen d ctx = lsFrozen e ctx := by
  simp [lsFrozen, h]

theorem onDev_id {f : Dev → Dev} {s : State} (h : f s.dev = s.dev) : onDev f s = s := by
  simp [onDev, h]

/-! ### Changes to landings and counters alone -/

theorem onlyLandings_refl (s : State) : OnlyLandings s s := rfl

theorem onlyLandings_trans {s t u : State} (h1 : OnlyLandings s t) (h2 : OnlyLandings t u) : OnlyLandings s u := by
  unfold OnlyLandings at *
  rw [h1] at h2
  exact h2

theorem onlyLandings_mem {s t : State} (h : OnlyLandings s t) : t.mem = s.mem := by
  unfold OnlyLandings at h; rw [h]

theorem onlyLandings_pending {s t : State} (h : OnlyLandings s t) : t.pending = s.pending := by
  unfold OnlyLandings at h; rw [h]

theorem onlyLandings_onLnd (l : Nat) (f : Landing → Landing) (s : State) : OnlyLandings s (onLnd l f s) := rfl
theorem onlyLandings_onPipe (l : Nat) (f : LPipe → LPipe) (s : State) : OnlyLandings s (onPipe l f s) := rfl
theorem onlyLandings_onRegs (l : Nat) (f : LRegs → LRegs) (s : State) : OnlyLandings s (onRegs l f s) := rfl
theorem onlyLandings_cntInc (off : Nat) (s : State) : OnlyLandings s (onDev (cntInc off) s) := rfl
theorem onlyLandings_cntIf (b : Bool) (off : Nat) (s : State) : OnlyLandings s (onDev (cntIf b off) s) := by
  cases b <;> rfl

/-! ### Images that leave the output buffers -/

theorem imageLeaves_map {α : Type} {g : Tracker → α} (hg : ∀ t : Tracker, g { t with imgOut := true } = g t) :
    ∀ l : List Tracker, (imageLeaves l).map g = l.map g
  | [] => rfl
  | t :: r => by
    unfold imageLeaves
    split
    · split
      · simp [imageLeaves_map hg r]
      · simp [hg]
    · simp [imageLeaves_map hg r]

@[simp] theorem imageLeaves_length (l : List Tracker) : (imageLeaves l).length = l.length := by
  simpa using congrArg List.length (imageLeaves_map (g := fun _ => ()) (fun _ => rfl) l)

theorem imageLeaves_any {p : Tracker → Bool} (hp : ∀ t : Tracker, p { t with imgOut := true } = p t) (l : List Tracker) :
    (imageLeaves l).any p = l.any p := by
  have h := congrArg (fun m => List.any m id) (imageLeaves_map hp l)
  simpa [List.any_map] using h

theorem find?_isNone_any {α : Type} (p : α → Bool) (l : List α) : (l.find? p).isNone = !(l.any p) := by
  induction l with
  | nil => rfl
  | cons a t ih => cases h : p a <;> simp [h, ih]

/-- The landing once the cycle's image, if any, has left its output buffer. -/
def imageStep (c : CycleIn) (x : Landing) : Landing := { x with trk := trkNow c x }

@[simp] theorem imageStep_regs (c : CycleIn) (x : Landing) : (imageStep c x).regs = x.regs := rfl
@[simp] theorem imageStep_pipe (c : CycleIn) (x : Landing) : (imageStep c x).pipe = x.pipe := rfl
@[simp] theorem imageStep_kern (c : CycleIn) (x : Landing) : (imageStep c x).kern = x.kern := rfl
@[simp] theorem imageStep_phase (c : CycleIn) (x : Landing) : (imageStep c x).phase = x.phase := rfl
@[simp] theorem imageStep_trkNext (c : CycleIn) (x : Landing) : (imageStep c x).trkNext = x.trkNext := rfl
@[simp] theorem imageStep_trk (c : CycleIn) (x : Landing) : (imageStep c x).trk = trkNow c x := rfl

@[simp] theorem trkNow_length (c : CycleIn) (x : Landing) : (trkNow c x).length = x.trk.length := by
  unfold trkNow; split <;> simp

theorem trkNow_any {p : Tracker → Bool} (hp : ∀ t : Tracker, p { t with imgOut := true } = p t) (c : CycleIn) (x : Landing) :
    (trkNow c x).any p = x.trk.any p := by
  unfold trkNow; split
  · exact imageLeaves_any hp _
  · rfl

theorem trkWrites_imageStep (c : CycleIn) (x : Landing) : trkWrites (imageStep c x) = trkWrites x := by
  funext res; exact trkNow_any (fun _ => rfl) c x

theorem trkOverdue_imageStep (c : CycleIn) (x : Landing) :
    (trkOverdue (imageStep c x)).isNone = (trkOverdue x).isNone := by
  simp only [trkOverdue, Option.isNone_map, find?_isNone_any, imageStep_trk, imageStep_pipe, imageStep_kern]
  exact congrArg _ (trkNow_any (fun _ => rfl) c x)

theorem resOk_imageStep (c : CycleIn) (x : Landing) : resOk (imageStep c x) = resOk x := by
  funext t res
  exact congrArg (fun b => decide (spGet 0 x.pipe.rdy res ≤ t) && !b) (congrFun (trkWrites_imageStep c x) res)

theorem stopOk_imageStep (c : CycleIn) (x : Landing) : stopOk (imageStep c x) = stopOk x := by
  funext t
  have h (id : Nat) : (trkFind (imageStep c x) id).isNone = (trkFind x id).isNone := by
    simp only [trkFind, find?_isNone_any, imageStep_trk]
    exact congrArg _ (trkNow_any (fun _ => rfl) c x)
  exact congrArg (fun f => decide (x.pipe.stopAt ≤ t) && x.pipe.stopTrk.all f) (funext h)

theorem trkConflict_imageStep (c : CycleIn) (x : Landing) : trkConflict (imageStep c x) = trkConflict x := by
  funext a; exact trkNow_any (fun _ => rfl) c x

theorem slotReady_imageStep (c : CycleIn) (x : Landing) : slotReady (imageStep c x) = slotReady x := by
  funext t i; simp only [slotReady, resOk_imageStep]

theorem livePlan_imageStep (c : CycleIn) (x : Landing) : livePlan (imageStep c x) = livePlan x := by
  funext t i; simp only [livePlan, resOk_imageStep]

theorem imageGone_lnd (l : Nat) (c : CycleIn) (s : State) :
    lndGet (imageGone l c s).dev l = imageStep c (lndGet s.dev l) := by
  unfold imageGone imageStep trkNow; split <;> simp

theorem imageGone_lnd_other (l : Nat) (c : CycleIn) (s : State) (m : Nat) (h : m ≠ l) :
    lndGet (imageGone l c s).dev m = lndGet s.dev m := by
  unfold imageGone; split <;> simp [lndGet_lndMod, h]

theorem imageGone_only (l : Nat) (c : CycleIn) (s : State) : OnlyLandings s (imageGone l c s) := by
  unfold imageGone
  split
  · exact onlyLandings_onLnd l _ s
  · exact onlyLandings_refl s

/-! ### The state in which a bundle is examined -/

/-- The state in which a bundle is examined: an image may have left, the cycle is counted and the bundle has reached
issue. -/
def atIssue (l : Nat) (c : CycleIn) (s : State) : State :=
  let s := onPipe l (fun p => { p with reach := some (p.reach.getD p.cyc) })
    (onDev (cntInc (lndBase l + 0x100)) (imageGone l c s))
  if waitExpired (lndGet s.dev l) then onPipe l (fun p => { p with timedOut := true }) s else s

/-- The landing whose bundle has reached issue. -/
def reachedIssue (x : Landing) : Landing :=
  let x := { x with pipe := { x.pipe with reach := some (x.pipe.reach.getD x.pipe.cyc) } }
  if waitExpired x then { x with pipe := { x.pipe with timedOut := true } } else x

theorem atIssue_lnd (l : Nat) (c : CycleIn) (s : State) :
    lndGet (atIssue l c s).dev l = reachedIssue (imageStep c (lndGet s.dev l)) := by
  simp only [atIssue, onPipe_dev, onDev_dev, lndGet_lndMod_same, lndGet_congr (cntInc_lnd _ _), imageGone_lnd, reachedIssue]
  split <;> simp [onPipe_dev, lndGet_congr (cntInc_lnd _ _), imageGone_lnd]

theorem atIssue_lnd_other (l : Nat) (c : CycleIn) (s : State) (m : Nat) (h : m ≠ l) :
    lndGet (atIssue l c s).dev m = lndGet s.dev m := by
  simp only [atIssue]
  split <;> simp [onPipe_dev, lndGet_lndMod, h, lndGet_congr (cntInc_lnd _ _), imageGone_lnd_other]

@[simp] theorem reachedIssue_regs (x : Landing) : (reachedIssue x).regs = x.regs := by
  simp only [reachedIssue]; split <;> rfl
@[simp] theorem reachedIssue_kern (x : Landing) : (reachedIssue x).kern = x.kern := by
  simp only [reachedIssue]; split <;> rfl
@[simp] theorem reachedIssue_trk (x : Landing) : (reachedIssue x).trk = x.trk := by
  simp only [reachedIssue]; split <;> rfl
@[simp] theorem reachedIssue_trkNext (x : Landing) : (reachedIssue x).trkNext = x.trkNext := by
  simp only [reachedIssue]; split <;> rfl
@[simp] theorem reachedIssue_phase (x : Landing) : (reachedIssue x).phase = x.phase := by
  simp only [reachedIssue]; split <;> rfl
@[simp] theorem reachedIssue_imem (x : Landing) : (reachedIssue x).imem = x.imem := by
  simp only [reachedIssue]; split <;> rfl
@[simp] theorem reachedIssue_flt (x : Landing) : (reachedIssue x).flt = x.flt := by
  simp only [reachedIssue]; split <;> rfl

/-- Reaching issue changes the cycle of reaching and the timeout of a wait, and nothing else of the pipeline. -/
theorem reachedIssue_pipe (x : Landing) :
    (reachedIssue x).pipe =
      { x.pipe with reach := some (x.pipe.reach.getD x.pipe.cyc), timedOut := (reachedIssue x).pipe.timedOut } := by
  simp only [reachedIssue]; split <;> rfl

theorem atIssue_only (l : Nat) (c : CycleIn) (s : State) : OnlyLandings s (atIssue l c s) := by
  have h1 := onlyLandings_trans (onlyLandings_trans (imageGone_only l c s) (onlyLandings_cntInc (lndBase l + 0x100) _))
    (onlyLandings_onPipe l (fun p => { p with reach := some (p.reach.getD p.cyc) }) _)
  simp only [atIssue]
  split
  · exact onlyLandings_trans h1 (onlyLandings_onPipe l _ _)
  · exact h1

@[simp] theorem atIssue_mem (l : Nat) (c : CycleIn) (s : State) : (atIssue l c s).mem = s.mem :=
  onlyLandings_mem (atIssue_only l c s)
@[simp] theorem atIssue_pending (l : Nat) (c : CycleIn) (s : State) :
    (atIssue l c s).pending = s.pending := onlyLandings_pending (atIssue_only l c s)

/-- The end of a landing cycle: the frame of the flight issue duty moves on, and ballast is counted (R133, R134). -/
def endCycle (l : Nat) (c : CycleIn) (s0 s : State) : State :=
  let x := lndGet s0.dev l
  let s := countOpen l (flightShut s0.dev l c) x s
  let fills := c.ballast && decide ((lndGet s.dev l).pipe.flightFree ≤ x.pipe.cyc) && !s.dev.rst.clocksStopped &&
    !s.dev.rst.coreBusy && landUp s.dev l
  onDev (cntIf (fills && decide (0 < s.dev.pwr.lim.ballast)) (fltBase l + 0x50)) s

theorem issueCycle_open {l : Nat} {c : CycleIn} {b : Bundle} {s : State} (h : issueOpen l c s = true)
    (hb : bundleLegal b = true) : issueCycle l c b s =
      endCycle l c s (if waitHolds (atIssue l c s) l b then stallCycle l 0x138 false (atIssue l c s)
       else tryIssue l c b (atIssue l c s)) := by
  simp only [issueOpen, Bool.and_eq_true, Bool.or_eq_true, beq_iff_eq, Bool.not_eq_true', decide_eq_true_eq] at h
  obtain ⟨⟨⟨⟨⟨⟨⟨⟨⟨⟨⟨⟨hp, hf⟩, ho⟩, hl⟩, hpc⟩, hst⟩, hx⟩, htl⟩, hpar⟩, hif⟩, hin⟩, hck⟩, hh⟩ := h
  have hne : ¬(4096 ≤ (lndGet s.dev l).pipe.pc) := by omega
  have ho' : trkOverdue (imageStep c (lndGet s.dev l)) = none := by
    rw [← Option.isNone_iff_eq_none, trkOverdue_imageStep]; exact ho
  have hr : runCycle l c b (onDev (cntInc (lndBase l + 0x100)) (imageGone l c s)) =
      (if waitHolds (atIssue l c s) l b then stallCycle l 0x138 false (atIssue l c s)
       else tryIssue l c b (atIssue l c s)) := by
    unfold runCycle
    simp only [onDev_dev, lndGet_congr (cntInc_lnd _ _), imageGone_lnd, ho', hin, imageStep_pipe, hl, hif, hb, hne,
      Bool.not_true, decide_false, Bool.or_self, Bool.false_eq_true, if_false, Nat.lt_irrefl]
    rfl
  have hp' : ((lndGet s.dev l).phase == .running || (lndGet s.dev l).phase == .waiting) = true := by simpa using hp
  unfold issueCycle endCycle
  rw [hr]
  simp only [hp', hf, hck, Bool.not_false, Bool.and_self, if_true, Bool.not_true, Bool.false_or]

/-! ### Issue -/

/-- The slots that act and are ready, with their plans. -/
def livePlans (x : Landing) (l : List SlotIn) : List (Nat × Plan) :=
  l.filterMap (fun i => (livePlan x x.pipe.cyc i).map (fun p => (i.idx, p)))

/-- The bundle issues where no cause of R88 holds it. -/
theorem tryIssue_issues {l : Nat} {c : CycleIn} {b : Bundle} {s : State} {live : List (Nat × Plan)}
    (hl : livePlans (lndGet s.dev l) (slotsOf s l b c) = live)
    (hr : (slotsOf s l b c).all (slotReady (lndGet s.dev l) (lndGet s.dev l).pipe.cyc) = true)
    (hn : (lndGet s.dev l).trk.length + (live.filter (fun p => p.2.start.isSome)).length ≤ 32)
    (hc : live.any (fun p => trkConflict (lndGet s.dev l) p.2.acc) = false)
    (hs : stopOk (lndGet s.dev l) (lndGet s.dev l).pipe.cyc = true)
    (hx : (lndGet s.dev l).pipe.xcross = none) (hx' : (live.map (fun p => p.2.cross)).sum = 0)
    (hst : (structHolds s l b).1 = false) (hp : c.parity = false)
    (ht : (flightShut s.dev l c && (actM b).op.toNat == 2 && pselOn (lndGet s.dev l).regs b.h.pselM) = false) :
    tryIssue l c b s = issueBundle l b live s := by
  unfold tryIssue
  have e0 : onDev (cntIf false (fltBase l + 0x28)) s = s := rfl
  unfold livePlans at hl
  have hn' : ¬ (32 < (lndGet s.dev l).trk.length + (live.filter (fun p => p.2.start.isSome)).length) := by omega
  simp only [hl, ht, e0, hn', if_false, hc, Bool.false_eq_true, hr, hs, Bool.not_true, Bool.or_self, hx,
    Option.getD_none, hx', Nat.lt_irrefl, hp]
  generalize hq : structHolds s l b = q at hst
  obtain ⟨a, b'⟩ := q
  simp only at hst
  subst hst
  simp

theorem resOk_reachedIssue (x : Landing) (t res : Nat) : resOk (reachedIssue x) t res = resOk x t res := by
  simp only [resOk, trkWrites, reachedIssue_trk]; rw [reachedIssue_pipe]

theorem resOk_reachedIssue' (x : Landing) : resOk (reachedIssue x) = resOk x := by
  funext t res; exact resOk_reachedIssue x t res

theorem reachedIssue_cyc (x : Landing) : (reachedIssue x).pipe.cyc = x.pipe.cyc := by rw [reachedIssue_pipe]

theorem slotReady_reachedIssue (x : Landing) (t : Nat) : slotReady (reachedIssue x) t = slotReady x t := by
  funext i; simp only [slotReady, resOk_reachedIssue']

theorem livePlan_reachedIssue (x : Landing) (t : Nat) : livePlan (reachedIssue x) t = livePlan x t := by
  funext i; simp only [livePlan, resOk_reachedIssue']

theorem livePlans_reachedIssue (x : Landing) (l : List SlotIn) : livePlans (reachedIssue x) l = livePlans x l := by
  simp only [livePlans, livePlan_reachedIssue, reachedIssue_cyc]

theorem stopOk_reachedIssue (x : Landing) (t : Nat) : stopOk (reachedIssue x) t = stopOk x t := by
  simp only [stopOk, trkFind, reachedIssue_trk]; rw [reachedIssue_pipe]

theorem trkConflict_reachedIssue (x : Landing) (a : List Rng) : trkConflict (reachedIssue x) a = trkConflict x a := by
  simp only [trkConflict, reachedIssue_trk]

theorem reachedIssue_xcross (x : Landing) : (reachedIssue x).pipe.xcross = x.pipe.xcross := by rw [reachedIssue_pipe]

theorem livePlans_imageStep (c : CycleIn) (x : Landing) (l : List SlotIn) : livePlans (imageStep c x) l = livePlans x l := by
  simp only [livePlans, livePlan_imageStep, imageStep_pipe]

/-- A cycle in which the landing is open for issue and no cause of R88 holds its bundle: the bundle issues. -/
theorem issueCycle_issues {l : Nat} {c : CycleIn} {b : Bundle} {s : State} {live : List (Nat × Plan)}
    (h : issueOpen l c s = true) (hb : bundleLegal b = true) (hw : waitHolds (atIssue l c s) l b = false)
    (hl : livePlans (lndGet s.dev l) (slotsOf (atIssue l c s) l b c) = live)
    (hr : (slotsOf (atIssue l c s) l b c).all (slotReady (lndGet s.dev l) (lndGet s.dev l).pipe.cyc) = true)
    (hn : (lndGet s.dev l).trk.length + (live.filter (fun p => p.2.start.isSome)).length ≤ 32)
    (hc : live.any (fun p => trkConflict (lndGet s.dev l) p.2.acc) = false)
    (hx : (live.map (fun p => p.2.cross)).sum = 0) (hst : (structHolds (atIssue l c s) l b).1 = false)
    (ht : (flightShut (atIssue l c s).dev l c && (actM b).op.toNat == 2 &&
      pselOn (lndGet s.dev l).regs b.h.pselM) = false) :
    issueCycle l c b s = endCycle l c s (issueBundle l b live (atIssue l c s)) := by
  rw [issueCycle_open h hb, hw]
  simp only [issueOpen, Bool.and_eq_true, Bool.or_eq_true, beq_iff_eq, Bool.not_eq_true', decide_eq_true_eq] at h
  obtain ⟨⟨⟨⟨⟨⟨⟨⟨⟨⟨⟨⟨_, _⟩, _⟩, _⟩, _⟩, hso⟩, hxc⟩, htl⟩, hpar⟩, _⟩, _⟩, _⟩, _⟩ := h
  simp only [Bool.false_eq_true, if_false]
  congr 1
  apply tryIssue_issues
  · rw [atIssue_lnd, livePlans_reachedIssue, livePlans_imageStep]; exact hl
  · rw [atIssue_lnd, slotReady_reachedIssue, slotReady_imageStep, reachedIssue_cyc, imageStep_pipe]; exact hr
  · rw [atIssue_lnd, reachedIssue_trk, imageStep_trk, trkNow_length]; exact hn
  · simp only [atIssue_lnd, trkConflict_reachedIssue, trkConflict_imageStep]; exact hc
  · rw [atIssue_lnd, stopOk_reachedIssue, stopOk_imageStep, reachedIssue_cyc]; exact hso
  · rw [atIssue_lnd, reachedIssue_xcross, imageStep_pipe]; exact Option.isNone_iff_eq_none.mp hxc
  · exact hx
  · exact hst
  · exact hpar
  · rw [atIssue_lnd, reachedIssue_regs, imageStep_regs]; exact ht

/-- The end of an issue: its counts, and the landing's control state (R86, R87). -/
def closeIssue (l : Nat) (b : Bundle) (acts : List Act) (x0 : Landing) (s : State) : State :=
  let fl := flowOf x0 b (pselOn x0.regs b.h.pselS)
  let d := cntIf fl.miss (lndBase l + 0x140) (cntInc (lndBase l + 0x108) s.dev)
  onLnd l (fun x => { x with
    phase := if x.phase = .draining then (if x.trk.isEmpty then .idle else .draining)
      else if x.phase = .halted then .halted else .running
    pipe := { x.pipe with
      pc := fl.next
      cyc := x0.pipe.cyc + 1
      lost := fl.lost
      noIssue := 0
      reissue := false
      reach := none
      timedOut := false
      xcross := none
      stopAt := if b.h.stop then stopCycle x0.pipe.cyc acts else 0
      stopTrk := if b.h.stop then
        (x.trk.filter (fun k => decide (x0.trkNext ≤ k.id) && k.dst.any (fun r => decide (r < 144)))).map (·.id) else [] } })
    { s with dev := d }

/-- A bundle of one plan that starts nothing and translates nothing: its effects, then the end of the issue. -/
theorem issueBundle_one {l : Nat} {b : Bundle} {i : Nat} {p : Plan} {s s' : State} (hf : p.fault = none)
    (hx : p.xl = []) (hs : p.start = none) (ha : applyActs l (lndGet s.dev l).pipe.cyc p.acts s = .ok s') :
    issueBundle l b [(i, p)] s = closeIssue l b p.acts (lndGet s.dev l) s' := by
  unfold issueBundle
  simp only [List.flatMap_cons, List.flatMap_nil, hx, List.append_nil, accountXl, List.foldl_nil, planFault, hf,
    List.map_cons, List.map_nil, planClash, hs, Bool.or_false, Bool.false_eq_true, if_false, runSlots, ha, closeIssue]

/-- A bundle that does nothing. -/
theorem issueBundle_none (l : Nat) (b : Bundle) (s : State) :
    issueBundle l b [] s = closeIssue l b [] (lndGet s.dev l) s := by
  unfold issueBundle
  simp only [List.flatMap_nil, accountXl, List.foldl_nil, planFault, List.map_nil, planClash, Bool.false_eq_true,
    if_false, runSlots, closeIssue]

/-! ### The bundle of a single operation -/

/-- A slot without an operation. -/
def offSlot (i : Nat) : SlotIn := ⟨i, false, [], [], [], false, .none⟩

/-- The slot that holds the operation of a scalar bundle. -/
def slotS (s : State) (l : Nat) (k : OpCtl) (op : BitVec 8) (f : SOps) : SlotIn :=
  let r := (lndGet s.dev l).regs
  ⟨b2n k.second, pselOn r k.psel && op.toNat != 0, if op.toNat = 0 then [] else pselRes k.psel, sSrc ⟨op, f⟩,
    sDst ⟨op, f⟩, false, goodPlan r (sSrc ⟨op, f⟩) (planS s l (bundleS k op f) k.second)⟩

theorem planS_off {s : State} {l : Nat} {b : Bundle} {second : Bool}
    (h : (if second then actS1 b else actS0 b).op = 0) : planS s l b second = .none := by
  unfold planS; simp [h]

theorem planV_off {s : State} {l : Nat} {b : Bundle} {o : VOp} {t : Nat} {sel : BitVec 5} {late : Nat}
    (h : o.op = 0) : planV s l b o t sel late = .none := by
  unfold planV; simp [h]

theorem planM_off {s : State} {l : Nat} {b : Bundle} (h : (actM b).op = 0) : planM s l b = .none := by
  unfold planM; simp [h]

theorem planX_off {s : State} {l : Nat} {b : Bundle} (h : (actX b).op = 0) : planX s l b = .none := by
  unfold planX; simp [h]

theorem slotsOf_bundleS (s : State) (l : Nat) (k : OpCtl) (op : BitVec 8) (f : SOps) (c : CycleIn) :
    slotsOf s l (bundleS k op f) c =
      if k.second then [offSlot 0, slotS s l k op f, offSlot 2, offSlot 3, offSlot 4, offSlot 5]
      else [slotS s l k op f, offSlot 1, offSlot 2, offSlot 3, offSlot 4, offSlot 5] := by
  cases hk : k.second <;>
    simp [slotsOf, slotS, offSlot, hk, bundleS, oneHeader, actS0, actS1, actV0, actV1, actM, actX, nopBundle,
      decodeBundle, nopV, nopM, nopX, sOfWord, vOfWord, mOfWord, xOfWord, hOfWord, b2n, planS_off, planV_off,
      planM_off, planX_off, goodPlan, badRead, sSrc, sDst, vSrc, vDst, mSrc, mDst, xSrc, mHold]

/-! ### Counters of an issue -/

theorem satAdd_bumped (v : W64) : BitVec.ofNat 64 (satAdd (2 ^ 64 - 1) v.toNat 1) = bumped v := by
  have hv := v.isLt
  unfold satAdd bumped
  by_cases h : v = BitVec.allOnes 64
  · subst h; decide
  · have h' : v.toNat ≠ 2 ^ 64 - 1 := fun e => h (BitVec.eq_of_toNat_eq (by simpa using e))
    rw [if_neg (by omega), if_neg h]
    apply BitVec.eq_of_toNat_eq
    simp [BitVec.toNat_add]

theorem countersGrow_nil {d e : Dev} (h : e.cnt = d.cnt) : CountersGrow [] d e := by
  intro off; simp [cntGet_congr h]

theorem countersGrow_inc {L : List Nat} {d e : Dev} {off : Nat} (h : CountersGrow L d e) (hn : off ∉ L) :
    CountersGrow (off :: L) d (cntInc off e) := by
  intro k
  rw [cntGet_cntInc, satAdd_bumped]
  by_cases hk : k = off
  · subst hk
    have := h k
    simp only [hn, if_false] at this
    simp [this]
  · simp [hk, h k]

theorem countersGrow_perm {L M : List Nat} {d e : Dev} (h : CountersGrow L d e) (hm : ∀ k, k ∈ L ↔ k ∈ M) :
    CountersGrow M d e := by
  intro k; rw [h k]; simp [hm]

theorem countersGrow_cnt {L : List Nat} {d e e' : Dev} (h : CountersGrow L d e) (he : e'.cnt = e.cnt) :
    CountersGrow L d e' := by
  intro k; rw [cntGet_congr he]; exact h k

theorem atIssue_cnt (l : Nat) (c : CycleIn) (s : State) :
    CountersGrow [lndBase l + 0x100] s.dev (atIssue l c s).dev := by
  have hi : (imageGone l c s).dev.cnt = s.dev.cnt := by
    unfold imageGone; split <;> rfl
  refine countersGrow_cnt (countersGrow_inc (off := lndBase l + 0x100) (countersGrow_nil hi) (by simp)) ?_
  simp only [atIssue]
  split <;> rfl

/-! ### The end of a cycle -/

theorem countOpen_cnt (l : Nat) (shut : Bool) (x : Landing) (s : State) : (countOpen l shut x s).dev.cnt = s.dev.cnt := by
  unfold countOpen; split <;> rfl

theorem countOpen_only (l : Nat) (shut : Bool) (x : Landing) (s : State) : OnlyLandings s (countOpen l shut x s) := by
  unfold countOpen
  split
  · exact onlyLandings_refl s
  · exact onlyLandings_onPipe l _ s

theorem countOpen_other (l : Nat) (shut : Bool) (x : Landing) (s : State) (m : Nat) (h : m ≠ l) :
    lndGet (countOpen l shut x s).dev m = lndGet s.dev m := by
  unfold countOpen; split <;> simp [onPipe_dev, lndGet_lndMod, h]

/-- The frame of the duty moves on, and nothing else of the landing (R133). -/
theorem countOpen_lnd (l : Nat) (shut : Bool) (x : Landing) (s : State) :
    ∃ f o, lndGet (countOpen l shut x s).dev l =
      { lndGet s.dev l with pipe := { (lndGet s.dev l).pipe with frame := f, opened := o } } := by
  unfold countOpen
  split
  · exact ⟨_, _, rfl⟩
  · exact ⟨x.pipe.cyc / 16, openedNow x + b2n (!shut), by simp [onPipe_dev]⟩

theorem endCycle_only (l : Nat) (c : CycleIn) (s0 s : State) : OnlyLandings s (endCycle l c s0 s) :=
  onlyLandings_trans (countOpen_only l _ _ s) (onlyLandings_cntIf _ _ _)

theorem endCycle_other (l : Nat) (c : CycleIn) (s0 s : State) (m : Nat) (h : m ≠ l) :
    lndGet (endCycle l c s0 s).dev m = lndGet s.dev m := by
  simp only [endCycle, onDev_dev, lndGet_congr (cntIf_lnd _ _ _), countOpen_other _ _ _ _ _ h]

theorem endCycle_lnd (l : Nat) (c : CycleIn) (s0 s : State) :
    ∃ f o, lndGet (endCycle l c s0 s).dev l =
      { lndGet s.dev l with pipe := { (lndGet s.dev l).pipe with frame := f, opened := o } } := by
  simp only [endCycle, onDev_dev, lndGet_congr (cntIf_lnd _ _ _)]
  exact countOpen_lnd l _ _ s

theorem landUp_congr {d e : Dev} (l : Nat) (h : e = { d with lnd := e.lnd, cnt := e.cnt }) : landUp e l = landUp d l := by
  rw [h]; rfl

/-- Ballast is counted where the flight has stayed free to the end of the cycle (R134). -/
theorem endCycle_cnt {l : Nat} {c : CycleIn} {s0 s : State} {L : List Nat} {busy : Bool} (h : CountersGrow L s0.dev s.dev)
    (ho : OnlyLandings s0 s) (hck : s0.dev.rst.clocksStopped = false) (hL : fltBase l + 0x50 ∉ L)
    (hf : decide ((lndGet s.dev l).pipe.flightFree ≤ (lndGet s0.dev l).pipe.cyc) =
      (decide ((lndGet s0.dev l).pipe.flightFree ≤ (lndGet s0.dev l).pipe.cyc) && !busy)) :
    CountersGrow (ballastCount l c busy s0 ++ L) s0.dev (endCycle l c s0 s).dev := by
  have hd : (countOpen l (flightShut s0.dev l c) (lndGet s0.dev l) s).dev =
      { s0.dev with lnd := (countOpen l (flightShut s0.dev l c) (lndGet s0.dev l) s).dev.lnd,
                    cnt := (countOpen l (flightShut s0.dev l c) (lndGet s0.dev l) s).dev.cnt } := by
    have := onlyLandings_trans ho (countOpen_only l (flightShut s0.dev l c) (lndGet s0.dev l) s)
    exact congrArg State.dev this
  obtain ⟨f, o, hl⟩ := countOpen_lnd l (flightShut s0.dev l c) (lndGet s0.dev l) s
  have hfl : (lndGet (countOpen l (flightShut s0.dev l c) (lndGet s0.dev l) s).dev l).pipe.flightFree =
      (lndGet s.dev l).pipe.flightFree := by rw [hl]
  have h2 : CountersGrow L s0.dev (countOpen l (flightShut s0.dev l c) (lndGet s0.dev l) s).dev :=
    countersGrow_cnt h (countOpen_cnt _ _ _ _)
  have hrst : (countOpen l (flightShut s0.dev l c) (lndGet s0.dev l) s).dev.rst = s0.dev.rst := by rw [hd]
  have hpwr : (countOpen l (flightShut s0.dev l c) (lndGet s0.dev l) s).dev.pwr = s0.dev.pwr := by rw [hd]
  simp only [endCycle, onDev_dev, hfl, hf, hrst, hpwr, hck, landUp_congr l hd, ballastCount]
  generalize hb : (c.ballast && (decide ((lndGet s0.dev l).pipe.flightFree ≤ (lndGet s0.dev l).pipe.cyc) && !busy) &&
    !false && !s0.dev.rst.coreBusy && landUp s0.dev l && decide (0 < s0.dev.pwr.lim.ballast)) = b
  have hb' : (c.ballast && decide (0 < s0.dev.pwr.lim.ballast) &&
      decide ((lndGet s0.dev l).pipe.flightFree ≤ (lndGet s0.dev l).pipe.cyc) && !busy && !s0.dev.rst.coreBusy &&
      landUp s0.dev l) = b := by
    rw [← hb]; simp only [Bool.not_false, Bool.and_true]; ac_rfl
  rw [hb']
  cases b
  · exact h2
  · exact countersGrow_inc h2 hL

/-! ### The end of an issue -/

theorem closeIssue_only (l : Nat) (b : Bundle) (acts : List Act) (x0 : Landing) (s : State) :
    OnlyLandings s (closeIssue l b acts x0 s) := by
  unfold closeIssue
  refine onlyLandings_trans ?_ (onlyLandings_onLnd l _ _)
  exact onlyLandings_trans (onlyLandings_cntInc (lndBase l + 0x108) s) (onlyLandings_cntIf _ _ _)

theorem closeIssue_other (l : Nat) (b : Bundle) (acts : List Act) (x0 : Landing) (s : State) (m : Nat) (h : m ≠ l) :
    lndGet (closeIssue l b acts x0 s).dev m = lndGet s.dev m := by
  simp [closeIssue, lndGet_lndMod, h, lndGet_congr (cntInc_lnd _ _), lndGet_congr (cntIf_lnd _ _ _)]

/-- The landing after an issue. -/
def closedLanding (b : Bundle) (acts : List Act) (x0 x : Landing) : Landing :=
  let fl := flowOf x0 b (pselOn x0.regs b.h.pselS)
  { x with
    phase := if x.phase = .draining then (if x.trk.isEmpty then .idle else .draining)
      else if x.phase = .halted then .halted else .running
    pipe := { x.pipe with
      pc := fl.next
      cyc := x0.pipe.cyc + 1
      lost := fl.lost
      noIssue := 0
      reissue := false
      reach := none
      timedOut := false
      xcross := none
      stopAt := if b.h.stop then stopCycle x0.pipe.cyc acts else 0
      stopTrk := if b.h.stop then
        (x.trk.filter (fun k => decide (x0.trkNext ≤ k.id) && k.dst.any (fun r => decide (r < 144)))).map (·.id) else [] } }

theorem closeIssue_lnd (l : Nat) (b : Bundle) (acts : List Act) (x0 : Landing) (s : State) :
    lndGet (closeIssue l b acts x0 s).dev l = closedLanding b acts x0 (lndGet s.dev l) := by
  simp [closeIssue, closedLanding, lndGet_congr (cntInc_lnd _ _), lndGet_congr (cntIf_lnd _ _ _)]

theorem closeIssue_cnt {l : Nat} {b : Bundle} {acts : List Act} {x0 : Landing} {s : State} {L : List Nat} {d : Dev}
    (h : CountersGrow L d s.dev) (h1 : lndBase l + 0x108 ∉ L) (h2 : lndBase l + 0x140 ∉ L) :
    CountersGrow ((if (flowOf x0 b (pselOn x0.regs b.h.pselS)).miss then [lndBase l + 0x140] else []) ++
      (lndBase l + 0x108) :: L) d (closeIssue l b acts x0 s).dev := by
  have k := countersGrow_inc h h1
  cases hm : (flowOf x0 b (pselOn x0.regs b.h.pselS)).miss
  · refine countersGrow_cnt (e := cntInc (lndBase l + 0x108) s.dev) (by simpa using k) ?_
    simp only [closeIssue, hm]; rfl
  · have k2 := countersGrow_inc (off := lndBase l + 0x140) k (by
      simp only [List.mem_cons, h2, or_false]; omega)
    refine countersGrow_cnt (e := cntInc (lndBase l + 0x140) (cntInc (lndBase l + 0x108) s.dev)) (by simpa using k2) ?_
    simp only [closeIssue, hm]; rfl

theorem afterHang_only {s t : State} (h : OnlyLandings s t) (hh : s.dev.rst.hangPending = false) : afterHang t = t := by
  have : t.dev.rst.hangPending = false := by unfold OnlyLandings at h; rw [h]; exact hh
  simp [afterHang, this]

theorem issueOpen_hang {l : Nat} {c : CycleIn} {s : State} (h : issueOpen l c s = true) :
    s.dev.rst.hangPending = false := by
  simp only [issueOpen, Bool.and_eq_true, Bool.not_eq_true'] at h
  exact h.2

/-! ### Scalar operations -/

theorem bundleS_pselS (k : OpCtl) (op : BitVec 8) (f : SOps) : (bundleS k op f).h.pselS = k.psel := by
  cases hk : k.second <;> simp [bundleS, oneHeader, hk]

theorem isDiv_bundleS (k : OpCtl) (op : BitVec 8) (f : SOps) :
    (isDiv (actS0 (bundleS k op f)) || isDiv (actS1 (bundleS k op f))) = isDiv ⟨op, f⟩ := by
  cases hk : k.second <;>
    simp [bundleS, oneHeader, hk, actS0, actS1, nopBundle, decodeBundle, isDiv, sOfWord]

theorem structHolds_bundleS (s : State) (l : Nat) (k : OpCtl) (op : BitVec 8) (f : SOps) :
    (structHolds s l (bundleS k op f)).1 = (isDiv ⟨op, f⟩ && pselOn (lndGet s.dev l).regs k.psel &&
      decide ((lndGet s.dev l).pipe.cyc < (lndGet s.dev l).pipe.divFree)) := by
  have hv0 : (actV0 (bundleS k op f)).op = 0 := by
    cases hk : k.second <;> simp [bundleS, oneHeader, hk, actV0, nopV, vOfWord]
  have hv1 : (actV1 (bundleS k op f)).op = 0 := by
    cases hk : k.second <;> simp [bundleS, oneHeader, hk, actV1, nopV, vOfWord]
  have hm : (actM (bundleS k op f)).op = 0 := by
    cases hk : k.second <;> simp [bundleS, oneHeader, hk, actM, nopM, mOfWord]
  simp [structHolds, hv0, hv1, hm, isDiv_bundleS, bundleS_pselS]

/-- The operation in S0 of a scalar bundle. -/
theorem actS0_bundleS (k : OpCtl) (op : BitVec 8) (f : SOps) :
    actS0 (bundleS k op f) = if k.second then sOfWord 0 else ⟨op, f⟩ := by
  cases hk : k.second <;> simp [bundleS, oneHeader, hk, actS0, nopBundle, decodeBundle]

theorem actS1_bundleS (k : OpCtl) (op : BitVec 8) (f : SOps) :
    actS1 (bundleS k op f) = if k.second then ⟨op, f⟩ else sOfWord 0 := by
  cases hk : k.second <;> simp [bundleS, oneHeader, hk, actS1, nopBundle, decodeBundle]

/-- A bundle without wait and drain is not held by one. -/
theorem waitHolds_bundleS {s : State} {l : Nat} {k : OpCtl} {op : BitVec 8} {f : SOps} (h1 : op.toNat ≠ 0x38)
    (h2 : op.toNat ≠ 0x39) : waitHolds s l (bundleS k op f) = false := by
  unfold waitHolds
  rw [actS0_bundleS]
  cases hk : k.second <;> simp [h1, h2, sOfWord]

/-- A scalar operation whose slot acts: its effects, then the end of the issue. -/
theorem issueCycle_bundleS {l : Nat} {c : CycleIn} {k : OpCtl} {op : BitVec 8} {f : SOps} {s s' : State}
    {p : Plan} (h : readyS l c k op f s = true) (hop : op ≠ 0) (hon : pselOn (lndGet s.dev l).regs k.psel = true)
    (hw : waitHolds (atIssue l c s) l (bundleS k op f) = false)
    (hpl : planS (atIssue l c s) l (bundleS k op f) k.second = p) (hf : p.fault = none)
    (hx : p.xl = []) (hst : p.start = none) (hacc : trkConflict (lndGet s.dev l) p.acc = false) (hcr : p.cross = 0)
    (ha : applyActs l (lndGet s.dev l).pipe.cyc p.acts (atIssue l c s) = .ok s') :
    issueCycle l c (bundleS k op f) s = endCycle l c s
      (closeIssue l (bundleS k op f) p.acts (reachedIssue (imageStep c (lndGet s.dev l))) s') := by
  simp only [readyS, operandsReady, Bool.and_eq_true, Bool.or_eq_true, Bool.not_eq_true', hon,
    false_or, decide_eq_true_eq, Option.isNone_iff_eq_none, Bool.true_eq_false] at h
  obtain ⟨⟨⟨ho, hb⟩, ⟨hp, _⟩, _⟩, ⟨⟨hr, hwr⟩, hbad⟩, hdv⟩ := h
  have hopn : op.toNat ≠ 0 := by
    intro e; exact hop (BitVec.eq_of_toNat_eq (by simpa using e))
  have hslot : slotS (atIssue l c s) l k op f =
      ⟨b2n k.second, true, pselRes k.psel, sSrc ⟨op, f⟩, sDst ⟨op, f⟩, false, p⟩ := by
    simp only [slotS, atIssue_lnd, reachedIssue_regs, imageStep_regs, hon, hpl, goodPlan, hbad]
    simp [hopn]
  have hoff (i : Nat) : slotReady (lndGet s.dev l) (lndGet s.dev l).pipe.cyc (offSlot i) = true := by
    simp [slotReady, offSlot]
  have hrdy (n : Nat) : slotReady (lndGet s.dev l) (lndGet s.dev l).pipe.cyc
      ⟨n, true, pselRes k.psel, sSrc ⟨op, f⟩, sDst ⟨op, f⟩, false, p⟩ = true := by
    simp only [slotReady, hp, hr, hwr]; rfl
  have hlive0 (i : Nat) : livePlan (lndGet s.dev l) (lndGet s.dev l).pipe.cyc (offSlot i) = none := by
    simp [livePlan, offSlot]
  have hlive (n : Nat) : livePlan (lndGet s.dev l) (lndGet s.dev l).pipe.cyc
      ⟨n, true, pselRes k.psel, sSrc ⟨op, f⟩, sDst ⟨op, f⟩, false, p⟩ = some p := by
    simp only [livePlan, hp, hr]; rfl
  rw [issueCycle_issues (live := [(b2n k.second, p)]) ho hb hw]
  · rw [issueBundle_one hf hx hst (s' := s') (by rw [atIssue_lnd, reachedIssue_cyc, imageStep_pipe]; exact ha), atIssue_lnd]
  · rw [slotsOf_bundleS, hslot]
    cases k.second <;> simp [livePlans, hlive, hlive0]
  · rw [slotsOf_bundleS, hslot]
    cases k.second <;> simp only [if_true, Bool.false_eq_true, if_false, List.all_cons, List.all_nil, hrdy, hoff,
      Bool.and_self]
  · simp only [issueOpen, Bool.and_eq_true, decide_eq_true_eq] at ho
    have := ho.1.1.1.1.1.2
    simp [hst]; exact this
  · simp [hacc]
  · simp [hcr]
  · rw [structHolds_bundleS, atIssue_lnd, reachedIssue_regs, imageStep_regs, hon, reachedIssue_cyc]
    rw [reachedIssue_pipe, imageStep_pipe]
    cases hd : isDiv ⟨op, f⟩
    · simp
    · simp only [Bool.true_and, decide_eq_false_iff_not, Nat.not_lt]
      rcases hdv with h | h
      · simp [hd] at h
      · exact h
  · have hm : (actM (bundleS k op f)).op = 0 := by
      cases hk : k.second <;> simp [bundleS, oneHeader, hk, actM, nopM, mOfWord]
    simp [hm]

end Sys2Proof.Machine
end

