-- ==== Sys2Proof/WellFormed.lean ====
section
/-! DEFINITION. Commands that a sender can form: the bounds of the operands that are plain numbers or lists. The machine
gives every command a meaning; a well-formed one is one that the spec's formats and figures can carry. -/

namespace Sys2Proof

/-- A slot of a unit is a cell where its header does not begin with 0xFFF (R278). -/
def USlot.wf : USlot → Bool
  | .cell c => c.dst != 0xFFF
  | .link _ _ _ => true

/-- A unit: 32 slots in four codewords, each with at most 15 corrected symbols or not correctable (R274, R276, R277). -/
def UnitIn.wf (u : UnitIn) : Bool :=
  u.slots.length == 32 && u.slots.all USlot.wf && u.corr.length == 4 && u.uncorr.length == 4 &&
    u.corr.all (fun n => decide (n ≤ 15))

/-- A frame fits into an Ethernet payload of 1,500 bytes with its header and tag, and finds at most 8 requests in the
queue (R490, R491, R496). -/
def Frame.wf (f : Frame) : Bool := decide (f.body.length ≤ 1460) && decide (f.queued ≤ 8)

/-- A matrix or move operation has one slot in a bundle (R62). -/
def OpCtl.single (k : OpCtl) : Bool := !k.second

/-- Meters of the 32 context slots (R388). -/
def Meter.wf (m : Meter) : Bool := m.slots.length == 32

/-- Duties in sixteenths; the ballast draw is part of the draw (R375, R384). -/
def LimitIn.wf (x : LimitIn) : Bool := decide (x.dutyW ≤ 16) && decide (x.dutyE ≤ 16) && decide (x.ballastW ≤ x.lastW)

/-- The answer to a host read of `n` bytes. -/
def HostRsp.wf (n : Nat) : HostRsp → Bool
  | .data b => decide (b.length ≤ n)
  | .error => true
  | .timeout => true

/-- The outcome of a start phase names landings, channels, galleries and causes that exist (R427, R433 to R435). -/
def PhaseIn.wf (x : PhaseIn) : Bool :=
  (match x.fail with
    | some c => decide (1 ≤ c ∧ c ≤ 10)
    | none => true) &&
  x.badLandings.all (fun l => decide (l < 104)) && x.badChannels.all (fun c => decide (c < 128)) &&
  x.badGalleries.all (fun g => decide (g < 12))

/-- A link of R532: PCIe 6.0 in FLIT mode, 5.0 and 4.0 without it, at widths 16, 8, 4, 2 and 1. -/
def linkWf (speed : BitVec 4) (width : BitVec 5) (flit : Bool) : Bool :=
  (speed == 4 || speed == 5 || speed == 6) && (flit == (speed == 6)) &&
    (width == 16 || width == 8 || width == 4 || width == 2 || width == 1)

/-- An access of BAR0 that R535 carries out. -/
def accessWf (off size : Nat) : Bool := (size == 4 || size == 8) && off % size == 0

/-- The commands a sender can form. -/
def Instr.wf : Instr → Bool
  | .mload _ _ k _ => k.single
  | .mmac _ _ k _ => k.single
  | .mzero _ _ k _ => k.single
  | .mstore _ _ k _ => k.single
  | .xcopy _ _ k _ => k.single
  | .xfill _ _ k _ => k.single
  | .xunpack _ _ k _ => k.single
  | .xstream _ _ k _ => k.single
  | .xnic _ _ k _ => k.single
  | .xtrig _ _ k _ => k.single
  | .xtopk _ _ k _ => k.single
  | .xctr _ _ k _ => k.single
  | .patrolScrub pa _ => decide (pa < 2 ^ 48)
  | .powerDownEntry c => decide (c < 192)
  | .selfRefreshEntry c => decide (c < 192)
  | .selfRefreshExit c => decide (c < 192)
  | .storeGate n => decide (n < 116)
  | .storeWake n => decide (n < 116)
  | .powerWindowBoundary m => m.wf
  | .lowWordRead off wide => accessWf off (if wide then 8 else 4)
  | .registerWrite off wide _ => accessWf off (if wide then 8 else 4)
  | .bar0BadAccess off size _ => !(accessWf off size)
  | .unitReceive _ u => u.wf
  | .limiterInterval x => x.wf
  | .junctionSample n _ => decide (n < 88)
  | .railTimeout r => decide (1 ≤ r ∧ r ≤ 2)
  | .startPhaseDone x => x.wf
  | .coreResetDone l => l.all (fun n => decide (n < 104))
  | .acceptBackwardStep f => f.wf
  | .portRetrain f => f.wf
  | .laneUnretire f => f.wf
  | .portEnable f => f.wf
  | .sensingClear f => f.wf
  | .pplW f => f.wf
  | .ffMhz f => f.wf
  | .resetSystem f => f.wf
  | .resetCore f => f.wf
  | .scrubContext f => f.wf
  | .admitModule f => f.wf
  | .portAdmit f => f.wf
  | .routeTable f => f.wf
  | .routePatch f => f.wf
  | .ilvApply f => f.wf
  | .defectRemove f => f.wf
  | .oosClear f => f.wf
  | .quiesceRequest f => f.wf
  | .maintRequest f => f.wf
  | .resumeRequest f => f.wf
  | .healthConfirm f => f.wf
  | .lsStart f => f.wf
  | .lsStop f => f.wf
  | .kmdRead f => f.wf
  | .kmdWrite f => f.wf
  | .readBlock f => f.wf
  | .writeBlock f => f.wf
  | .heartbeat f => f.wf
  | .launchFetchDone _ _ r => r.wf 128
  | .dmaToModule _ _ r => r.wf 4096
  | .doorbell off bytes _ => decide (1 ≤ bytes ∧ bytes ≤ 4) && decide (off + bytes ≤ 2 ^ 24)
  | .bar2Write _ data en _ => data.length == en.length && decide (0 < data.length)
  | .bar2Read _ len => decide (0 < len ∧ len ≤ 4096)
  | .pcieLinkChange up speed width flit => !up || linkWf speed width flit
  | _ => true

end Sys2Proof
end

