-- ==== Sys2Proof/Tests/Slice0.lean ====
section
/-! SUPPORT. The model's own tests: ill-formed commands refused, single steps on small states, and for every obligation
with hypotheses a state and operands that meet those of each clause, with what the step then answers. -/

namespace Sys2Proof.Tests

set_option Elab.async false

open Machine

/-! ### How a test looks at a step -/

def answers (i : Instr) (s : State) (p : State → Bool) : Bool :=
  match exec i s with
  | .next t => p t
  | _ => false

/-- The command changes nothing. -/
def idle (i : Instr) (s : State) : Bool := answers i s (fun t => t == s)

def only (l : List Part) (s t : State) : Bool := @decide (Only l s t) (inferInstanceAs (Decidable (t = _)))

/-- The counters grow as CountersGrow says, at every offset that either state or the list names. -/
def grows (l : List Nat) (d e : Dev) : Bool :=
  ((d.cnt ++ e.cnt).map (·.1) ++ l).all (fun o => cntGet e o == if l.contains o then bumped (cntGet d o) else cntGet d o)

def grew (off : Nat) (d e : Dev) : Bool := cntGet e off == bumped (cntGet d off)

/-- Frame of a lone bundle's issue: its landing at the next bundle, its counters, nothing else but registers. -/
def alone (l : Land) (c : CycleIn) (m : Bool) (next lost : Nat) (more : List Nat) (s t : State) : Bool :=
  let x := lndGet s.dev l
  let y := lndGet t.dev l
  { t with dev := { t.dev with lnd := [], cnt := [] } } == { s with dev := { s.dev with lnd := [], cnt := [] } } &&
    ((s.dev.lnd ++ t.dev.lnd).map (·.1)).all (fun m => m == l.val || lndGet t.dev m == lndGet s.dev m) &&
    grows (issueCounts l c m s ++ more) s.dev t.dev && y.imem == x.imem && y.flt == x.flt && y.kern == x.kern &&
    y.trk == x.trk && y.trkNext == x.trkNext && y.phase == .running && y.pipe.pc == next && y.pipe.cyc == x.pipe.cyc + 1 &&
    y.pipe.lost == lost && y.pipe.noIssue == 0

def wroteS (x y : Landing) (w : List (Nat × W64)) : Bool :=
  (List.range 64).all (fun r => regS y.regs r == match w.find? (fun w => w.1 == r) with
    | some w => w.2
    | none => regS x.regs r) && y.regs == { x.regs with s := y.regs.s, bad := y.regs.bad }

def wroteP (x y : Landing) (pd : Nat) (v : W64) : Bool :=
  (List.range 16).all (fun q => regP y.regs q == if q = pd ∧ q ≠ 0 then v else regP x.regs q) &&
    y.regs == { x.regs with p := y.regs.p }

def wroteV (x y : Landing) (vd : Nat) (v : VWord) : Bool :=
  (List.range 64).all (fun r => regV y.regs r == if r = vd then v else regV x.regs r) &&
    y.regs == { x.regs with v := y.regs.v, bad := y.regs.bad }

/-! ### A small state: landing 3 runs, every landing is enabled, one page of the context reaches its own store -/

def l3 : Land := 3
def c0 : CycleIn := ⟨false, false, false, false, false, false⟩
def c1 : CycleIn := ⟨false, false, false, false, true, false⟩
/-- Slot 0 of its kind, no extension, predicate p0, no stop bit, bhint 0. -/
def k0 : OpCtl := ⟨false, 0, none, 0, false⟩
def k1 : OpCtl := { k0 with second := true }
/-- A predicate that is off: p2 holds 0. -/
def kOff : OpCtl := { k0 with psel := 2 }

def lanesRun : Landing := { Landing.reset with
  phase := .running
  trkNext := 4
  pipe := { Landing.reset.pipe with pc := 100, cyc := 50 }
  regs := { LRegs.empty with
    s := [(1, 5), (2, 0xFFFFFFFFFFFFFFF9), (3, 0xA00100), (4, 64), (5, 0xA01000), (6, 0xA02040), (7, 0x8000000012345678),
      (10, 3), (11, 0xA01000), (63, 77)]
    v := [(1, BitVec.ofNat 2048 (2 ^ 2047 + 0xDEADBEEF)), (2, BitVec.ofNat 2048 (0x3F800000 * ((2 ^ 2048 - 1) / (2 ^ 32 - 1)))),
      (5, BitVec.ofNat 2048 (0x80 + 0x40 * 2 ^ 32))]
    p := [(1, 0xF0F0F0F0F0F0F0F1), (2, 0)] } }

def mem0 : Memory := ⟨[(storeBase 3 + 0x100, 0x11), (storeBase 3 + 0x101, 0x22), (storeBase 3 + 0x107, 0x88)], [],
  (List.range 8).map (fun i => storeBase 3 / 64 + i)⟩

def s0 : State := {
  mem := mem0
  pending := []
  dev := { State.reset.dev with
    lnd := [(3, lanesRun)]
    health := { State.reset.dev.health with landState := (List.range 104).map (fun i => (i, 0)) }
    memc := { State.reset.dev.memc with xltCache := [⟨0, 1, 5, BitVec.ofNat 64 (storeBase 3 + 15)⟩] } } }

def x0 : Landing := lndGet s0.dev l3

/-- Another landing in place of landing 3. -/
def withL (g : Landing → Landing) : State := { s0 with dev := { s0.dev with lnd := [(3, g lanesRun)] } }
def withD (g : Dev → Dev) : State := { s0 with dev := g s0.dev }

def all (l : List Bool) : Bool := l.all id

/-- The range begins at `pa` and crosses no page. -/
def rangeIs (r : Except (Nat × Nat) (Nat × Nat)) (pa : Nat) : Bool :=
  match r with
  | .ok (a, c) => a == pa && c == 0
  | .error _ => false

/-- A module up and admitted: READY, every reset stage released, every landing enabled and idle. -/
def sLive : State := { State.reset with dev := { State.reset.dev with
  rst := { Rst.reset with held := false, step := 10, refLocked := true, phase := 8, incarnation := 1, cause := 1 }
  health := { Health.reset with state := .ready, landState := (List.range 104).map (fun i => (i, 0)), landingsEnabled := 104 }
  rtr := { Router.reset with node := 0xFF } } }

def liveD (g : Dev → Dev) : State := { sLive with dev := g sLive.dev }

/-- A written scalar object. -/
def withObj (key : Nat) (v : W64) (s : State) : State :=
  { s with dev := { s.dev with kmd := { s.dev.kmd with objs := (key, v) :: s.dev.kmd.objs } } }

/-! ### The queue and time -/

theorem witness_StepRunsFront : all [answers (.trstN false) s0 (fun t => match step { s0 with pending := [.trstN false] } with
    | .next u => u == t | _ => false)] = true := by decide +kernel

theorem witness_IdleStep : all [s0.pending == [], match step s0 with | .next t => t.dev.tim.now == 1 && t.dev.tim.count == 0 | _ => false,
  sLive.pending == [], hubUp sLive.dev, match step sLive with
    | .next t => t.dev.tim.count == sLive.dev.tim.count + 1 && t == { sLive with dev := { sLive.dev with tim := t.dev.tim } }
    | _ => false] = true := by decide +kernel

/-! ### Scalar operations -/

def rrr (sd sa sb : BitVec 6) : SOps := ⟨sd, sa, sb, 0, false, false⟩
def rri (sd sa : BitVec 6) (imm : BitVec 20) : SOps := ⟨sd, sa, 0, imm, true, false⟩

/-- Every row of scalar arithmetic: in S0 on registers, in S1 with an immediate on the low halves. -/
theorem witness_ScalarArithmetic : all [pselOn x0.regs 0, aluRows.all (fun row => [(k0, rrr 10 2 1), (k1, { rri 63 7 0xFFFFD with w32 := true })].all (fun (k, f) =>
      readyS l3 c1 k row.op f s0 && answers (row.con l3 c1 k f) s0 (fun t => alone l3 c1 false 101 0 [] s0 t &&
        wroteS x0 (lndGet t.dev l3) [(f.sd.toNat, row.result f.w32 (regS x0.regs f.sa.toNat) (srcB k f x0))])))] = true := by decide +kernel

/-- The flight counts ballast where the limiter has some (R134), and an image that leaves frees its buffer (R137). -/
def sBallast : State := { s0 with dev := { s0.dev with
  pwr := { s0.dev.pwr with lim := { s0.dev.pwr.lim with ballast := 8 } }
  lnd := [(3, { lanesRun with trk := [⟨3, [], false, 0, [], .mstore 0 0 [], none, false, 0, [], false, none, false, false⟩] })] } }
theorem witness_ScalarArithmetic_counts : all [ballastCount 3 c1 false sBallast == [fltBase 3 + 0x50],
  readyS l3 { c1 with imgOut := true } k0 1 (rrr 10 2 1) sBallast, answers (.add l3 { c1 with imgOut := true } k0 (rrr 10 2 1)) sBallast
    (fun t => grows [lndBase 3 + 0x100, lndBase 3 + 0x108, fltBase 3 + 0x50] sBallast.dev t.dev &&
      (lndGet t.dev l3).trk.map (·.imgOut) == [true] &&
      (lndGet t.dev l3).trk == trkNow { c1 with imgOut := true } (lndGet sBallast.dev 3))] = true := by decide +kernel

theorem witness_PredicateResults : all [
  cmpRows.all (fun row => [rrr 3 2 1, { rrr 0 2 1 with w32 := true }, rrr 5 1 1].all (fun f =>
    readyS l3 c0 k0 row.op f s0 && answers (row.con l3 c0 k0 f) s0 (fun t => alone l3 c0 false 101 0 [] s0 t &&
      wroteP x0 (lndGet t.dev l3) (f.sd.toNat % 16) (if (if f.w32 then row.holds 32 ((regS x0.regs f.sa.toNat).setWidth 32)
        ((srcB k0 f x0).setWidth 32) else row.holds 64 (regS x0.regs f.sa.toNat) (srcB k0 f x0)) then BitVec.allOnes 64 else 0)))),
  predRows.all (fun row => [rrr 3 1 0, { rrr 15 0 1 with w32 := true }].all (fun f =>
    readyS l3 c0 k1 row.op f s0 && answers (row.con l3 c0 k1 f) s0 (fun t => alone l3 c0 false 101 0 [] s0 t &&
      wroteP x0 (lndGet t.dev l3) (f.sd.toNat % 16) (let v := row.val (regP x0.regs (f.sa.toNat % 16)) (regP x0.regs (f.sb.toNat % 16))
        if f.w32 then (v.setWidth 32).signExtend 64 else v))))] = true := by decide +kernel

theorem witness_SpecialRegisters : all [
  readyS l3 c0 k0 0x18 (rri 9 0 0x80000) s0,
  answers (.movi l3 c0 k0 (rri 9 0 0x80000)) s0 (fun t => wroteS x0 (lndGet t.dev l3) [(9, 0xFFFFFFFFFFF80000)]),
  [0, 1, 2, 3, 4, 5, 6, 8, 0xA, 0xB, 0x10, 0x11, 0x12, 0x18].all (fun n => let f : SOps := ⟨10, 0, 0, n, false, false⟩
    readyS l3 c0 k0 0x2E f s0 && answers (.mfs l3 c0 k0 f) s0 (fun t => alone l3 c0 false 101 0 [] s0 t &&
      wroteS x0 (lndGet t.dev l3) ((10, specialValue 3 n.toNat s0) :: if n = 8 then [(11, BitVec.ofNat 64 (timeQuality s0.dev.tim))] else []))),
  [0x10, 0x18].all (fun n => let f : SOps := ⟨0, 7, 0, n, false, false⟩
    readyS l3 c0 k0 0x2F f s0 && answers (.mts l3 c0 k0 f) s0 (fun t => alone l3 c0 false 101 0 [] s0 t &&
      (lndGet t.dev l3).regs == if n = 0x10 then { x0.regs with waitTmo := 0x8000000012345678 }
        else { x0.regs with rngKey := 0x8000000012345678 }))] = true := by decide +kernel

/-- Operands with which the row's own field checks pass. -/
def plainOps (op : BitVec 8) : SOps := if op = 0x2E ∨ op = 0x2F then ⟨9, 0, 0, 0x10, false, false⟩ else
  if op = 0x38 then ⟨8, 1, 0, 9, true, false⟩ else if op = 0x31 then rrr 0 1 0 else if op = 0x3F then rrr 0 1 0 else
  if op = 0x33 ∨ op = 0x39 ∨ op = 0x3E then rrr 0 0 0 else if op = 0x18 then rri 1 0 5 else rrr 9 1 2

theorem witness_PredicatedOffDoesNothing : all [!(pselOn x0.regs 2), plainRows.all (fun row =>
  readyS l3 c0 kOff row.2 (plainOps row.2) s0 && answers (row.1 l3 c0 kOff (plainOps row.2)) s0 (fun t =>
    alone l3 c0 false 101 0 [] s0 t && (lndGet t.dev l3).regs == x0.regs))] = true := by decide +kernel

/-- Branches to both ends of the instruction store and just outside it, taken and not, with either hint. -/
theorem witness_Branches : all [
  [(k0, rri 0 0 0xFFF9C, 0, 4), (k0, ⟨0, 0, 0, 3995, true, false⟩, 4095, 4), ({ k0 with bhint := 1 }, rri 0 0 1, 101, 1)].all (fun e =>
    readyS l3 c0 e.1 0x30 e.2.1 s0 && answers (.br l3 c0 e.1 e.2.1) s0 (fun t =>
      alone l3 c0 false e.2.2.1 e.2.2.2 (if e.2.2.2 = 4 then [lndBase 3 + 0x140] else []) s0 t)),
  readyS l3 c0 { kOff with bhint := 1 } 0x30 (rri 0 0 5) s0,
  answers (.br l3 c0 { kOff with bhint := 1 } (rri 0 0 5)) s0 (fun t => alone l3 c0 false 101 4 [lndBase 3 + 0x140] s0 t),
  answers (.call l3 c0 { k0 with bhint := 1 } (rri 0 0 7)) s0 (fun t => alone l3 c0 false 107 1 [] s0 t &&
    wroteS x0 (lndGet t.dev l3) [(63, 101)]),
  readyS l3 c0 k0 0x31 (rrr 0 1 0) s0, answers (.brr l3 c0 k0 (rrr 0 1 0)) s0 (fun t => alone l3 c0 false 5 4 [] s0 t),
  readyS l3 c0 k0 0x33 (rrr 0 0 0) s0, answers (.ret l3 c0 k0 (rrr 0 0 0)) s0 (fun t => alone l3 c0 false 77 4 [] s0 t),
  readyS l3 c0 k0 0x30 (rri 0 0 3996) s0,
  [rri 0 0 3996, rri 0 0 0xFFF9B].all (fun f => [.br l3 c0 k0 f, .call l3 c0 k0 f].all (fun i => answers i s0 (fun t =>
    (lndGet t.dev l3).phase == .halted && (lndGet t.dev l3).flt == ⟨true, 0, 1, 100, 0⟩ && t.mem == s0.mem)))] = true := by decide +kernel

/-- Context 0x800 with all counters in slot 0; counter 5 at 9, counter 64 with its error flag. -/
def sCtr : State := withD (fun d => { d with nic := { d.nic with
  ctxCfg := [(0, (BitVec.ofNat 256 0x800 <<< 244) ||| (BitVec.ofNat 256 4096 <<< 209))]
  ctr := [(5, ⟨9, false⟩), (64, ⟨3, true⟩)] } })
def waitF (sa : BitVec 6) (th : BitVec 20) : SOps := ⟨8, sa, 0, th, true, false⟩
def sTrk : State := withL (fun x => { x with trk := [⟨3, [], false, 0, [], .xfill 0 0 0 0, none, false, 0, [], false, none, false, false⟩] })

theorem witness_WaitsAndDrains : all [ctrOwned sCtr.dev 0 5, ctrOwned sCtr.dev 0 64, !(ctrOwned s0.dev 0 5),
  readyS l3 c0 k0 0x38 (waitF 1 9) sCtr, readyS l3 c0 k0 0x38 (waitF 4 200) sCtr, readyS l3 c0 k0 0x38 (waitF 1 9) s0,
  answers (.wait l3 c0 k0 (waitF 1 9)) sCtr (fun t => alone l3 c0 false 101 0 [] sCtr t && wroteS x0 (lndGet t.dev l3) [(8, 9)]),
  answers (.wait l3 c0 k0 (waitF 4 200)) sCtr (fun t => wroteS x0 (lndGet t.dev l3) [(8, 0x8000000000000003)]),
  answers (.wait l3 c0 k0 (waitF 1 10)) sCtr (fun t => (lndGet t.dev l3).phase == .waiting && (lndGet t.dev l3).pipe.pc == 100 &&
    grows [lndBase 3 + 0x100, lndBase 3 + 0x138] sCtr.dev t.dev),
  answers (.wait l3 c0 k0 (waitF 1 9)) s0 (fun t => (lndGet t.dev l3).flt == ⟨true, 0, 8, 100, 0⟩),
  readyS l3 c0 k0 0x39 (rrr 0 0 0) s0, answers (.drain l3 c0 k0 (rrr 0 0 0)) s0 (fun t => alone l3 c0 false 101 0 [] s0 t),
  readyS l3 c0 k0 0x39 (rrr 0 0 0) sTrk, answers (.drain l3 c0 k0 (rrr 0 0 0)) sTrk (fun t =>
    (lndGet t.dev l3).phase == .waiting && grows [lndBase 3 + 0x100, lndBase 3 + 0x138] sTrk.dev t.dev)] = true := by decide +kernel

theorem witness_BreakAndExit : all [readyS l3 c1 k0 0x3E (rrr 0 0 0) s0, readyS l3 c1 k0 0x3F (rrr 0 7 0) s0,
  answers (.brk l3 c1 k0 (rrr 0 0 0)) s0 (fun t => (lndGet t.dev l3).phase == .halted && (lndGet t.dev l3).flt == ⟨true, 0, 0xA, 100, 0⟩),
  answers (.exit l3 c1 k0 (rrr 0 7 0)) s0 (fun t => (lndGet t.dev l3).phase == .idle && (lndGet t.dev l3).kern.exitCode == 0x12345678),
  answers (.exit l3 c1 k0 (rrr 0 7 0)) sTrk (fun t => (lndGet t.dev l3).phase == .draining)] = true := by decide +kernel

theorem witness_NopIssues : all [readyS l3 c1 k0 0 (rrr 0 0 0) s0, issueOpen 3 c1 s0, encodeBundle (decodeBundle 0) == 0,
  spGet 0 x0.imem x0.pipe.pc == 0, bundleLegal (decodeBundle 0), (actS0 (decodeBundle 0)).op == 0, (actX (decodeBundle 0)).op == 0,
  answers (.nop l3 c1 k0) s0 (fun t => alone l3 c1 false 101 0 [] s0 t),
  answers (.bundleIssue l3 c1) s0 (fun t => alone l3 c1 false 101 0 [] s0 t)] = true := by decide +kernel

def fetched (w : BitVec 512) : State := withL (fun x => { x with imem := [(100, w)] })
def vops (ty : BitVec 4) (vd va vb : BitVec 6) : VOps := ⟨ty, vd, va, vb, 0, 0, 0, 0, 0, false, false, 0⟩
def mops (acc : BitVec 3) : MOps := ⟨0, 0, acc, 0, 0, false, 0, 0, 0, 0⟩
def xops : XOps := ⟨0, 0, 0, 7, 0, 9, true, true, 0, 0⟩

def same (l : Land) (i : Bundle) (r : State → Host.Outcome State Fault Refusal) : Bool :=
  let s := fetched (encodeBundle i)
  match r s with
  | .next t => spGet 0 (lndGet s.dev l).imem (lndGet s.dev l).pipe.pc == encodeBundle i && answers (.bundleIssue l c0) s (fun u => u == t)
  | _ => false

theorem witness_FetchedBundleRuns : all [same l3 (bundleS k1 1 (rrr 9 1 2)) (cycleS 3 c0 k1 1 (rrr 9 1 2)),
  same l3 (bundleV k0 1 (vops 6 9 1 2)) (cycleV 3 c0 k0 1 (vops 6 9 1 2)),
  same l3 (bundleM k0 3 (mops 1)) (cycleM 3 c0 k0 3 (mops 1)), same l3 (bundleX k0 8 xops) (cycleX 3 c0 k0 8 xops)] = true := by decide +kernel

/-- An issue and a stall, each with a counter that grows. -/
theorem witness_CyclesAccounted : all [[fetched 0, fetched (encodeBundle (bundleS k0 0x39 (rrr 0 0 0))), { sTrk with dev := { sTrk.dev with
      lnd := [(3, { (lndGet sTrk.dev 3) with imem := [(100, encodeBundle (bundleS k0 0x39 (rrr 0 0 0)))] })] } }].all (fun s =>
    answers (.bundleIssue l3 c0) s (fun t => ((lndGet t.dev l3).phase == .running || (lndGet t.dev l3).phase == .waiting) &&
      let offs := [0x108, 0x138, 0x130, 0x120, 0x118, 0x110, 0x128].map (lndBase 3 + ·)
      let total (d : Dev) : Nat := (offs.map (fun o => (cntGet d o).toNat)).sum
      !s.dev.rst.hangPending && (cntGet t.dev (lndBase 3 + 0x100)).toNat + total s.dev == (cntGet s.dev (lndBase 3 + 0x100)).toNat + total t.dev))] = true := by decide +kernel

/-! ### Loads, stores and vector operations -/

/-- Addresses at the ends of the mapped page's first granules: 0xA00100 reaches the store's offset 0x100. -/
theorem witness_OwnStoreScalarAccess : all [
  [(0, 8), (1, 4), (2, 2), (3, 1)].all (fun (z, n) => let size : BitVec 2 := BitVec.ofNat 2 z
    rangeIs (reachRange s0 3 0xA00100 n false 1) (storeBase 3 + 0x100) && inOwnStore 3 (storeBase 3 + 0x100) n &&
    !(trkConflict x0 (rngOf (storeBase 3 + 0x100) n false)) && (granAt s0 (storeBase 3 + 0x100)).1 == .ok &&
    readyS l3 c0 k0 (0x20 + size.setWidth 8) (rri 9 3 0) s0 && readyS l3 c0 k1 (0x28 + size.setWidth 8) (⟨0, 3, 7, 0, true, false⟩) s0 &&
    answers (.ld l3 c0 k0 size (rri 9 3 0)) s0 (fun t => t.mem == s0.mem &&
      wroteS x0 (lndGet t.dev l3) [(9, if n = 8 then 0x8800000000002211 else if n = 1 then 0x11 else 0x2211)]) &&
    answers (.st l3 c0 k1 size ⟨0, 3, 7, 0, true, false⟩) s0 (fun t => (List.range 12).all (fun i => t.mem.byte (storeBase 3 + 0xFE + i) ==
      if 2 ≤ i ∧ i < 2 + n then (0x8000000012345678 : W64).extractLsb' (8 * (i - 2)) 8 else s0.mem.byte (storeBase 3 + 0xFE + i)))),
  readyS l3 c0 k0 0x21 { rri 9 3 4 with w32 := true } s0,
  answers (.ld l3 c0 k0 1 { rri 9 3 4 with w32 := true }) s0 (fun t => wroteS x0 (lndGet t.dev l3) [(9, 0xFFFFFFFF88000000)]),
  readyS l3 c0 k0 0x20 (rri 9 3 1) s0, readyS l3 c0 k0 0x28 (rri 9 3 1) s0,
  [.ld l3 c0 k0 0 (rri 9 3 1), .st l3 c0 k0 0 (rri 9 3 1)].all (fun i => answers i s0 (fun t =>
    (lndGet t.dev l3).flt == ⟨true, 0, 7, 100, 0xA00101⟩ && t.mem == s0.mem))] = true := by decide +kernel

def vmem : VOps := { vops 6 9 2 5 with sa := 3 }
def kLow : OpCtl := { k0 with psel := 1 }
def byteMask : W64 := pselMask x0.regs 1
/-- The byte of register v2 or v9 that a lane gives, or the old one where it is off. -/
def laneOn (i : Nat) : Bool := byteMask.getLsbD (i / 4)

theorem witness_OwnStoreVectorAccess : all [byteMask != 0, byteMask.getLsbD 0, !(byteMask.getLsbD 1),
  rangeIs (reachRange s0 3 0xA00100 256 false 1) (storeBase 3 + 0x100), rangeIs (reachRange s0 3 0xA00100 256 true 1) (storeBase 3 + 0x100),
  readyV l3 c0 kLow 0x30 vmem s0, (firstBad s0 (laneGrans (storeBase 3 + 0x100) 0xA00100 byteMask)).isNone,
  answers (.vld l3 c0 kLow vmem) s0 (fun t => t.mem == s0.mem && wroteV x0 (lndGet t.dev l3) 9 0x2211),
  readyV l3 c0 kLow 0x31 vmem s0, answers (.vst l3 c0 kLow vmem) s0 (fun t =>
    (List.range 20).all (fun i => t.mem.byte (storeBase 3 + 0xF8 + i) == if 8 ≤ i ∧ laneOn (i - 8) = true then
      (regV x0.regs 2).extractLsb' (8 * (i - 8)) 8 else s0.mem.byte (storeBase 3 + 0xF8 + i)))] = true := by decide +kernel

/-- Lanes 20 to 35 alone: two granules from the second on; lane 15 next to them is off. -/
def sSpan : State := withL (fun x => { x with regs := { x.regs with p := [(1, 0xF0F0F0F0F0F0F0F1), (3, 0xFFFF00000)] } })
def kSpan : OpCtl := { k0 with psel := 3 }
theorem witness_OwnStoreVectorAccess_span : all [maskSpan (pselMask (lndGet sSpan.dev 3).regs 3) == (64, 128),
  rangeIs (reachRange sSpan 3 (0xA00100 + 64) 128 false 1) (storeBase 3 + 0x140), inOwnStore 3 (storeBase 3 + 0x140) 128,
  readyV l3 c0 kSpan 0x30 vmem sSpan, answers (.vld l3 c0 kSpan vmem) sSpan (fun t => t.mem == sSpan.mem),
  readyV l3 c0 kSpan 0x31 vmem sSpan, answers (.vst l3 c0 kSpan vmem) sSpan (fun t => [63, 64, 79, 80, 143, 144].all (fun i =>
    t.mem.byte (storeBase 3 + 0x100 + i) == if 80 ≤ i ∧ i < 144 then (regV x0.regs 2).extractLsb' (8 * i) 8 else 0)),
  readyV l3 c0 kOff 0x30 { vmem with imm20 := 1, zero := true } s0, readyV l3 c0 kOff 0x31 { vmem with imm20 := 1 } s0,
  answers (.vld l3 c0 kOff { vmem with imm20 := 1, zero := true }) s0 (fun t => t.mem == s0.mem && wroteV x0 (lndGet t.dev l3) 9 0),
  answers (.vst l3 c0 kOff { vmem with imm20 := 1 }) s0 (fun t => t.mem == s0.mem && (lndGet t.dev l3).regs == x0.regs),
  readyV l3 c0 kLow 0x30 { vmem with imm20 := 1 } s0, readyV l3 c0 kLow 0x31 { vmem with imm20 := 1 } s0,
  [Instr.vld, .vst].all (fun o => answers (o l3 c0 kLow { vmem with imm20 := 1 }) s0 (fun t =>
    (lndGet t.dev l3).flt == ⟨true, 2, 7, 100, 0xA00101⟩ && t.mem == s0.mem))] = true := by decide +kernel

/-- One lane of a gather and of a scatter: lane 0 at sa + 0x80. -/
def vlane : VOps := { vops 6 9 2 5 with sa := 3, zero := true }
def kLane : OpCtl := { k0 with psel := 3 }
def sLane : State := withL (fun x => { x with regs := { x.regs with p := [(1, 0xF0F0F0F0F0F0F0F1), (3, 1)] } })

theorem witness_OwnStoreVectorAccess_lanes : all [readyV l3 c0 kLane 0x32 vlane sLane, readyV l3 c0 kLane 0x33 vlane sLane,
  match laneAddrs sLane 3 (regS x0.regs 3) (regV x0.regs 5) 1 true with
  | .ok l => l.filterMap id == [(storeBase 3 + 0x180, 0xA00180)] && (l[0]?).join == some (storeBase 3 + 0x180, 0xA00180) &&
    (firstBad sLane (l.filterMap id)).isNone
  | .error _ => false,
  answers (.vgather l3 c0 kLane vlane) sLane (fun t => t.mem == sLane.mem && wroteV (lndGet sLane.dev 3) (lndGet t.dev l3) 9 0),
  answers (.vscatter l3 c0 kLane vlane) sLane (fun t => (List.range 6).all (fun i => t.mem.byte (storeBase 3 + 0x17F + i) ==
    if 1 ≤ i ∧ i < 5 then (regV x0.regs 2).extractLsb' (8 * (i - 1)) 8 else 0))] = true := by decide +kernel

/-- Every element-by-element operation on bytes, and the first on each type. -/
theorem witness_VectorElements : all [
  vecRows.all (fun row => let f : VOps := { vops 5 9 1 2 with vc := 5, sa := 7, pd := 1 }
    readyV l3 c0 kLow row.op f s0 && answers (row.con l3 c0 kLow f) s0 (fun t => alone l3 c0 false 101 0 [] s0 t &&
      let v := regV (lndGet t.dev l3).regs 9
      [3, 4].all (fun i => vElem 8 v i == laneResult 5 byteMask false 0 (row.elem x0.regs f i % 2 ^ 8) i))),
  (List.range 9).all (fun ty => let f : VOps := { vops (BitVec.ofNat 4 ty) 9 1 2 with zero := true }
    readyV l3 c0 k1 1 f s0 && answers (.vadd l3 c0 k1 f) s0 (fun t => readyFrom x0 (lndGet t.dev l3) 73 == 50 + (if ty < 3 then 4 else 2)))] = true := by decide +kernel

/-- The bounds of each integer type: the most negative number, the most positive one and a saturated product. -/
theorem witness_IntegerElements : all [[3, 4, 5, 6, 7, 8].all (fun ty => let w := tyW ty
  decide (2 ^ (w - 1) < 2 ^ w) && intElems.all (fun row => [(2 ^ (w - 1), 2 ^ w - 1), (2 ^ (w - 1) - 1, 1)].all (fun (a, b) =>
    vElemOp row.1 ty .nearest false a b 3 == (row.2 (decide (ty ≤ 5)) w (BitVec.ofNat w a) (BitVec.ofNat w b) 3).toNat)) &&
  vElemOp 3 ty .nearest true (2 ^ (w - 1)) (2 ^ (w - 1)) 0 == (if ty ≤ 5 then 2 ^ (w - 1) - 1 else 2 ^ w - 1))] = true := by decide +kernel

def vres (ty : BitVec 4) (ctl : BitVec 26) (imm : BitVec 20) : VOps := { vops ty 9 1 2 with vc := 5, sa := 10, pd := 3, imm20 := imm, ctl := ctl }

theorem witness_VectorOtherResults : all [
  readyV l3 c0 kLow 0x10 (vres 6 3 0) s0, answers (.vcmp l3 c0 kLow (vres 6 3 0)) s0 (fun t => alone l3 c0 false 101 0 [] s0 t &&
    wroteP x0 (lndGet t.dev l3) 3 (vCmpResult 6 3 byteMask false (regP x0.regs 3) (regV x0.regs 1) (regV x0.regs 2))),
  readyV l3 c0 k0 0x18 (vres 0 0x12 0) s0, answers (.vcvt l3 c0 k0 (vres 0 0x12 0)) s0 (fun t => alone l3 c0 false 101 0 [] s0 t),
  readyV l3 c0 k0 0x23 (vres 4 0 127) s0, answers (.vins l3 c0 k0 (vres 4 0 127)) s0 (fun t => alone l3 c0 false 101 0 [] s0 t &&
    wroteV x0 (lndGet t.dev l3) 9 (BitVec.ofNat 2048 (3 * 2 ^ 2032))),
  readyV l3 c0 k0 0x22 (vres 4 0 127) s0, answers (.vext l3 c0 k0 (vres 4 0 127)) s0 (fun t => alone l3 c0 false 101 0 [] s0 t &&
    wroteS x0 (lndGet t.dev l3) [(10, 0xFFFFFFFFFFFF8000)]),
  [0x28, 0x29, 0x2A].all (fun op => readyV l3 c0 k0 op (vres 3 0 0) s0),
  [(.vredadd l3 c0 k0 (vres 3 0 0), 0x28), (.vredmax l3 c0 k0 (vres 3 0 0), 0x29), (.vredmin l3 c0 k0 (vres 3 0 0), 0x2A)].all (fun (i, op) =>
    answers i s0 (fun t => alone l3 c0 false 101 0 [] s0 t &&
      wroteS x0 (lndGet t.dev l3) [(10, vReduce op 3 .nearest (pselMask x0.regs 0) (regV x0.regs 1))])),
  readyV l3 c0 kLane 0x38 (vres 1 2 0) sLane, tyFloat 1 == some bf16,
  readyV l3 c0 k0 0x3C { vops 6 9 0 0 with sa := 10, ctl := 77 } s0] = true := by decide +kernel

/-! ### Flights and moves -/

/-- Slot 0's counters are its own; a second page reaches gallery store 0, and registers hold lengths and tables. -/
def sMove : State := withD (fun d => { d with
  nic := sCtr.dev.nic
  memc := { d.memc with xltCache := d.memc.xltCache ++ [⟨0, 1, 6, 0x02000000000F⟩] }
  lnd := [(3, { lanesRun with regs := { lanesRun.regs with
    s := [(1, 5), (3, 0xA00100), (4, 0xA01000), (7, 0x8000000012345678), (10, 3), (11, 0xA01000), (60, 128), (61, 0xC00000), (62, 72)] } })] })
def xMove : Landing := lndGet sMove.dev 3
def mfull : MOps := ⟨7, 7, 2, 0, 0, false, 4, 0, 0, 0⟩

theorem witness_MatrixTiles : all [readyM l3 c1 k0 3 (mops 7) s0, readyM l3 c1 k0 2 mfull s0,
  answers (.mzero l3 c1 k0 (mops 7)) s0 (fun t => grows (issueCounts 3 c1 true s0) s0.dev t.dev && (lndGet t.dev l3).pipe.pc == 101 &&
    (lndGet t.dev l3).pipe.flightFree == 51)] = true := by decide +kernel

def starts (o : StartOp) (s t : State) : Bool :=
  let x := lndGet s.dev l3
  let y := lndGet t.dev l3
  (y.trk.getLast?).any (fun k => k.id == x.trkNext && k.rngs == o.rngs && k.dst == o.dst && k.op == o.op && k.notify == o.notify &&
    k.ready == o.ready && k.alloc == x.pipe.cyc) && y.trk.length == x.trk.length + 1 && y.regs == x.regs && t.mem == s.mem && y.pipe.pc == 101

/-- Operands of the move operations: from 0xA00100 to 0xA01000 or to the gallery store, counter 9 notified. -/
def xopsOf (op : BitVec 8) : XOps :=
  if op = 1 ∨ op = 2 then ⟨4, 3, 4, 7, 2, 9, true, true, 0, 0⟩
  else if op = 3 then ⟨4, 3, 60, 11, 1, 9, true, false, 0, 0⟩
  else if op = 4 then ⟨61, 0, 62, 11, 1, 9, true, false, 0, 0⟩
  else if op = 7 then ⟨4, 3, 60, 10, 0, 9, true, false, 0, 0⟩
  else ⟨4, 3, 4, 4, 2, 9, true, false, 0, 0⟩

def sFar : State := { sMove with dev := { sMove.dev with memc := { sMove.dev.memc with
  xltCache := [⟨0, 1, 5, BitVec.ofNat 64 (storeBase 4 + 15)⟩] } } }

theorem witness_AsynchronousStarts : all [
  [1, 2, 3, 4, 5, 6, 7].all (fun n => moveRows.any (fun row => row.2.toNat == n && readyX l3 c0 k0 row.2 (xopsOf row.2) sMove &&
    (startOf xMove (planX sMove 3 (bundleX k0 row.2 (xopsOf row.2)))).any (fun o => answers (row.1 l3 c0 k0 (xopsOf row.2)) sMove (starts o sMove)))),
  [(1, Instr.mload), (4, Instr.mstore)].all (fun (op, con) => let f : MOps := { mfull with fmtA := 6, fmtB := 0 }
    readyM l3 c0 k0 op f sMove && (startOf xMove (planM sMove 3 (bundleM k0 op f))).any (fun o =>
      answers (con l3 c0 k0 f) sMove (starts o sMove))),
  readyS l3 c0 k0 0x20 (rri 9 3 0) sFar, readyS l3 c0 k0 0x28 (rri 9 3 0) sFar, readyV l3 c0 kLow 0x30 vmem sFar, readyV l3 c0 kLow 0x31 vmem sFar,
  (startOf xMove (planS sFar 3 (bundleS k0 0x20 (rri 9 3 0)) false)).any (fun o => answers (.ld l3 c0 k0 0 (rri 9 3 0)) sFar (starts o sFar)),
  (startOf xMove (planS sFar 3 (bundleS k0 0x28 (rri 9 3 0)) false)).any (fun o => answers (.st l3 c0 k0 0 (rri 9 3 0)) sFar (starts o sFar)),
  (startOf xMove (planV sFar 3 (bundleV kLow 0x30 vmem) ⟨0x30, vmem⟩ 3 1 0)).any (fun o => answers (.vld l3 c0 kLow vmem) sFar (starts o sFar)),
  (startOf xMove (planV sFar 3 (bundleV kLow 0x31 vmem) ⟨0x31, vmem⟩ 3 1 0)).any (fun o => answers (.vst l3 c0 kLow vmem) sFar (starts o sFar))] = true := by decide +kernel

def copyPlan (r : List (Nat × W64)) (f : XOps) (s : State) (op : BitVec 8) : Plan :=
  planX { s with dev := { s.dev with lnd := [(3, { xMove with regs := { xMove.regs with s := r } })] } } 3 (bundleX k0 op f)

def startIs (p : Plan) (o : StartOp) : Bool :=
  p.start.any (fun q => q.op == o.op && q.rngs == o.rngs && q.dst == o.dst && q.notify == o.notify && q.ready == o.ready)

/-- Lengths at the bound of 256 MiB and past it, misaligned ends, overlap, length 0, and a counter not owned. -/
theorem witness_CopyAndFillPlans : all [
  (copyPlan [(3, 0xA00100), (4, 0xA01000), (5, 0x10000040)] ⟨4, 3, 5, 7, 0, 0, false, false, 0, 0⟩ sMove 1).fault == some (1, 0),
  (copyPlan [(3, 0xA00120), (4, 0xA01000), (5, 0x10000000)] ⟨4, 3, 5, 7, 0, 0, false, false, 0, 0⟩ sMove 1).fault == some (7, 0xA00120),
  (copyPlan [(3, 0xA00100), (4, 0xA01020), (5, 64)] ⟨4, 3, 5, 7, 0, 0, false, false, 0, 0⟩ sMove 1).fault == some (7, 0xA01020),
  (copyPlan [(3, 0xA00100), (4, 0xA01020), (5, 64)] ⟨4, 3, 5, 7, 0, 0, false, false, 0, 0⟩ sMove 2).fault == some (7, 0xA01020),
  (copyPlan [(3, 0xA00100), (4, 0xA00140), (5, 128)] ⟨4, 3, 5, 7, 0, 0, false, false, 0, 0⟩ sMove 1).fault == some (1, 0),
  (copyPlan [(3, 0xA00100), (4, 0xA00140), (5, 64)] ⟨4, 3, 5, 7, 0, 0, false, false, 0, 0⟩ sMove 1).fault == none,
  startIs (copyPlan [(3, 0xA00100), (4, 0xA00140), (5, 64)] ⟨4, 3, 5, 7, 0, 0, false, false, 0, 0⟩ sMove 1)
    ⟨.xcopy (storeBase 3 + 0x100) (storeBase 3 + 0x140) 0xA00140 64, rngOf (storeBase 3 + 0x100) 64 false ++ rngOf (storeBase 3 + 0x140) 64 true,
      false, [], none, true⟩,
  startIs (copyPlan [(3, 0xA00100), (4, 0xA00140), (5, 0)] ⟨4, 3, 5, 7, 0, 9, true, false, 0, 0⟩ sMove 1) ⟨.xcopy 0 0 0xA00140 0, [], false, [], some 9, true⟩,
  (copyPlan [(3, 0xA00100), (4, 0xA01000), (5, 64)] ⟨4, 3, 5, 7, 0, 9, true, false, 0, 0⟩ s0 1).fault == some (8, 0),
  rangeIs (namedRange sMove 3 0xA00140 64 true 0) (storeBase 3 + 0x140), rangeIs (namedRange sMove 3 0xA00140 0 true 0) (0)] = true := by decide +kernel

theorem witness_CounterSetAndOffSlots : all [readyX l3 c0 k0 8 xops sMove, ctrOwned sMove.dev 0 9, sMove.dev.nic.trig.isEmpty,
  answers (.xctr l3 c0 k0 xops) sMove (fun t => ctrGet t.dev 9 == ⟨0x12345678, false⟩ && ctrGet t.dev 5 == ⟨9, false⟩ && t.mem == sMove.mem),
  !(pselOn x0.regs 2),
  matrixRows.all (fun row => let f : MOps := if row.2 = 2 then mfull else if row.2 = 3 then mops 2 else { mfull with fmtA := 6, fmtB := 0 }
    readyM l3 c1 kOff row.2 f sMove && answers (row.1 l3 c1 kOff f) sMove (fun t => alone l3 c1 true 101 0 [] sMove t && (lndGet t.dev l3).regs == xMove.regs)),
  moveRows.all (fun row => let f := if row.2 = 8 then xops else xopsOf row.2
    readyX l3 c0 kOff row.2 f sMove && answers (row.1 l3 c0 kOff f) sMove (fun t => alone l3 c0 false 101 0 [] sMove t && (lndGet t.dev l3).regs == xMove.regs))] = true := by decide +kernel

/-! ### Trackers, kernels, engines, memory -/

def trkOf (op : AsyncOp) : Tracker := ⟨3, [], false, 0, [], op, none, true, 0, [], false, none, false, false⟩
def sRet (op : AsyncOp) (ph : LPhase) : State := withL (fun x => { x with phase := ph, trk := [trkOf op] })
def gone (t : State) (ph : LPhase) : Bool := (lndGet t.dev l3).trk.isEmpty && (lndGet t.dev l3).phase == ph

theorem witness_TrackerRetires : all [
  (trkFind (lndGet (sRet (.ld 9 8 0 0 false) .running).dev 3) 3) == some (trkOf (.ld 9 8 0 0 false)), keyOf s0.dev (storeBase 3 + 0x13E) == some (storeBase 3 + 0x13E),
  (granAt s0 (storeBase 3 + 0x100)).1 == .ok, !(pageRetired s0.dev (storeBase 3 + 0x100)),
  answers (.trackerRetire l3 3) (sRet (.ld 9 8 (storeBase 3 + 0x100) 0 false) .draining) (fun t => gone t .idle && t.mem == mem0 &&
    wroteS x0 (lndGet t.dev l3) [(9, 0x8800000000002211)]),
  answers (.trackerRetire l3 3) (sRet (.ld 9 4 (storeBase 3 + 0x104) 0 true) .running) (fun t => gone t .running &&
    wroteS x0 (lndGet t.dev l3) [(9, 0xFFFFFFFF88000000)]),
  answers (.trackerRetire l3 3) (withL (fun x => { x with trk := [{ trkOf (.xfill 0 0 0 0) with ready := false, failed := some (1, 0) }] }))
    (fun t => gone t .running),
  answers (.trackerRetire l3 3) (sRet (.st (storeBase 3 + 0x13E) 0 [0xAA, 0xBB]) .running) (fun t => gone t .running &&
    (List.range 4).all (fun i => t.mem.byte (storeBase 3 + 0x13D + i) == [0, 0xAA, 0xBB, 0].getD i 1)),
  answers (.trackerRetire l3 3) (sRet (.xcopy 0 0 0 0) .running) (fun t => gone t .running && t.mem == mem0 &&
    grows [memBase + 0x480] s0.dev t.dev)] = true := by decide +kernel

/-- A wait for counter 5 to reach 10, at bundle 100. -/
def sWait : State := { sCtr with dev := { sCtr.dev with lnd := [(3, { lanesRun with
  phase := .waiting, imem := [(100, encodeBundle (bundleS k0 0x38 (waitF 1 10)))], regs := { lanesRun.regs with waitTmo := 1 } })] } }

theorem witness_LandingTimeouts : all [
  answers (.trackerTimeout l3 3) (sRet (.xfill 0 0 0 0) .running) (fun t => only [.lnd, .hif] (sRet (.xfill 0 0 0 0) .running) t &&
    (lndGet t.dev l3).flt == ⟨true, 7, 0xB, 100, 0⟩ && (lndGet t.dev l3).trk == [{ trkOf (.xfill 0 0 0 0) with timedOut := true }]),
  readyS 3 c0 k0 0x38 (waitF 1 10) sWait, ctrOwned sWait.dev 0 5, pselOn (lndGet sWait.dev 3).regs 0,
  answers (.waitTimeout l3) sWait (fun t => alone l3 c0 false 101 0 [] sWait t && wroteS (lndGet sWait.dev 3) (lndGet t.dev l3) [(8, 0x4000000000000009)]),
  let s := liveD (fun d => { d with lnd := s0.dev.lnd })
  objGet s.dev 0x605001 != 1 && answers (.watchdog l3) s (fun t => only [.lnd, .hif, .kmd, .cnt] s t && (lndGet t.dev l3).flt == ⟨true, 7, 0xC, 100, 0⟩ &&
    t.dev.kmd.ev == [⟨1, 0x6001, 3, 0, timeQuality s.dev.tim, s.dev.health.state.code, 0⟩] && grew (objCnt 0x605003) s.dev t.dev)] = true := by decide +kernel

def runOf (desc : BitVec 1024) : Running := ⟨7, desc, [], [], none, false, none, 0, false, false, 0, false, false, false⟩
def ringOf (r : Ring) (s : State) : State := { s with dev := ringPut 31 7 r s.dev }

theorem witness_KernelCompletes :
    let s := ringOf { ringDefault with cfg := 4, run := some (runOf 0) } sLive
    let s2 := ringOf { ringDefault with run := some { runOf 0 with landings := [3] } } { sLive with dev := { sLive.dev with lnd := s0.dev.lnd } }
    all [kernelDone s.dev 31 7 (runOf 0), answers (.kernelComplete 31 7 5) s (fun t => only [.hif, .cnt] s t &&
        ringGet t.dev 31 7 == { ringDefault with cfg := 4, prod := 8 } && grows [hifBase + 0x420] s.dev t.dev && t.dev.hif.out.length == 1),
      !(kernelDone s2.dev 31 7 { runOf 0 with landings := [3] }), idle (.kernelComplete 31 7 0) s2] = true := by decide +kernel

def job : Job := ⟨3, 3, 0⟩
def sEng (g : MemCtl → MemCtl) : State := { sRet (.xfill 0 0 0 0) .running with dev := { (sRet (.xfill 0 0 0 0) .running).dev with memc := g s0.dev.memc } }

/-- Room for one more of 32 and none; engines free and taken. -/
theorem witness_EnginesTakeJobs : all [
  answers (.streamJobStart 11 1) (sEng (fun m => { m with strQ := [(23, [job, job])], strRun := [(23, List.replicate 31 job)] })) (fun t =>
    t.dev.memc.strQ == [(23, [job])] && (spGet [] t.dev.memc.strRun 23).length == 32),
  idle (.streamJobStart 11 1) (sEng (fun m => { m with strQ := [(23, [job])], strRun := [(23, List.replicate 32 job)] })),
  answers (.unpackJobStart 1 7) (sEng (fun m => { m with upkQ := [(1, [job])] })) (fun t => t.dev.memc.upkQ.isEmpty && t.dev.memc.upkRun == [(15, [job])]),
  idle (.unpackJobStart 1 7) (sEng (fun m => { m with upkQ := [(1, [job])], upkRun := [(15, [job])] })),
  answers (.topkJobStart 11) (sEng (fun m => { m with topQ := [(11, [job])] })) (fun t => t.dev.memc.topQ.isEmpty && t.dev.memc.topRun == [(11, [job])]),
  idle (.topkJobStart 11) (sEng (fun m => { m with topQ := [(11, [job])], topRun := [(11, [job])] }))] = true := by decide +kernel

def sByte : State := { sLive with mem := ⟨[(0x01000000100F, 7)], [], []⟩ }
def sCopying : State := liveD (fun d => { d with memc := { d.memc with copying := [3 * 2 ^ 48 + 5] } })

theorem witness_MemoryErrors : all [isLive sByte.dev, keyOf sByte.dev 0x010000001000 == some 0x010000001000,
  idle (.patrolScrub 0x010000001000 .clean) sByte,
  (let sr := liveD (fun d => { d with memc := { d.memc with srf := [0, 5] } })
   [0, 5].all (fun c => answers (.patrolScrub (0x010000000000 + 256 * c) .clean) sr (fun t => only [.memc, .cnt] sr t &&
     t.dev.memc.srf == [0, 5]))),
  answers (.patrolScrub 0x010000001000 .correctable) sByte (fun t => t.mem == sByte.mem && grew (memBase + 0x400) sByte.dev t.dev),
  answers (.patrolScrub 0x010000001000 .uncorrectable) sByte (fun t => only [.mem, .memc, .health, .kmd, .cnt] sByte t &&
    t.mem.bytes == sByte.mem.bytes && t.mem.poison == [0x010000001000 / 64] && grew (memBase + 0x408) sByte.dev t.dev && t.dev.kmd.evNext == 2 &&
    t.dev.memc.retired == [0x010000001000]),
  keyOf sLive.dev (storeBase 0) == some (storeBase 0), answers (.patrolScrub (storeBase 0) .uncorrectable) sLive (fun t =>
    grew (memBase + 0x428) sLive.dev t.dev && t.dev.memc.retired.isEmpty),
  answers (.rowSpareDone 3 5) sCopying (fun t => t.dev.memc.copying.isEmpty && spGet 0 t.dev.memc.spareUsed 3 == 1 &&
    grew (memBase + 0x430) sCopying.dev t.dev && t.dev.health.defects.map (·.kind) == [4])] = true := by decide +kernel

theorem witness_ChannelsAndStores :
    let sr := withObj 0x530001 1 sLive
    let down := liveD (fun d => { d with memc := { d.memc with srf := [191], pdn := [3] } })
    let gate := withObj 0x530002 1 { sLive with mem := ⟨[(storeBase 0, 1), (storeBase 1, 2)], [], [storeBase 0 / 64, storeBase 1 / 64]⟩ }
    all [answers (.powerDownEntry 191) sLive (fun t => t.dev.memc.pdn == [191]), objGet sr.dev 0x530001 == 1, objGet (withObj 0x530001 0 sLive).dev 0x530001 != 1,
      answers (.selfRefreshEntry 191) sr (fun t => t.dev.memc.srf == [191] && grows [memBase + 0x460] sr.dev t.dev), idle (.selfRefreshEntry 191) (withObj 0x530001 0 sLive),
      answers (.selfRefreshExit 191) down (fun t => t.dev.memc.srf.isEmpty && t.dev.memc.pdn == [3] && grows [memBase + 0x468] down.dev t.dev),
      storeCanGate gate.dev 0, (storeSpan 0).1 == storeBase 0,
      answers (.storeGate 0) gate (fun t => t.mem == ⟨[(storeBase 1, 2)], [], [storeBase 1 / 64]⟩ && t.dev.memc.gated == [0] && grows [memBase + 0x458] gate.dev t.dev),
      answers (.storeWake 0) (liveD (fun d => { d with memc := { d.memc with gated := [0, 115] } })) (fun t => t.dev.memc.gated == [115])] = true := by decide +kernel

theorem witness_TranslationControl :
    let inv (v : Option (Nat × Nat)) := liveD (fun d => { d with memc := { d.memc with xltInv := v, xltCache := [⟨0, 1, 5, 15⟩, ⟨31, 1, 5, 15⟩] } })
    let run := ringOf { ringDefault with run := some (runOf 0) } sLive
    all [hifUp sLive.dev, isLive sLive.dev, answers (.xltInv 0x1001F) sLive (fun t => t.dev.memc.xltInv == some (1, 31)),
      answers (.xltInv 0x20000) sLive (fun t => only [.hif] sLive t && t.dev.hif.err.getLsbD 0),
      answers (.xltInv 0) (inv (some (0, 31))) (fun t => only [.hif] (inv (some (0, 31))) t && t.dev.hif.err.getLsbD 1),
      answers .xltInvDone (inv (some (0, 31))) (fun t => t.dev.memc.xltCache == [⟨0, 1, 5, 15⟩] && t.dev.memc.xltInv.isNone),
      answers .xltInvDone (inv (some (1, 31))) (fun t => t.dev.memc.xltCache.isEmpty), !(kernelRuns sLive.dev 31), kernelRuns run.dev 31,
      answers (.xltRootWrite 31 0xFFFFFFFFFFFFFFFF) (inv none) (fun t => xltRoot t.dev 31 == 0x0000FFFFFFFFF001 && t.dev.memc.xltCache == [⟨0, 1, 5, 15⟩]),
      answers (.xltRootWrite 31 1) run (fun t => only [.hif] run t && t.dev.hif.err.getLsbD 1)] = true := by decide +kernel

/-- A memory in canonical form, and a step that writes it. -/
theorem witness_MemoryStaysCanonical :
    all [s0.mem.wf, sByte.mem.wf, answers (.st l3 c0 k1 1 ⟨0, 3, 7, 0, true, false⟩) s0 (fun t => t.mem.wf && t.mem != s0.mem)] = true := by decide +kernel

/-! ### Rack time -/

def timD (g : Tim → Tim) : State := liveD (fun d => { d with tim := g d.tim })
def sHold : State := timD (fun u => { u with state := .holdover, everLocked := true, estPresent := true, expressWithdrawn := false })

theorem witness_LockLoss :
    let lk := timD (fun u => { u with state := .locked, everLocked := true, expressWithdrawn := false })
    let aq := timD (fun u => { u with state := .acquiring })
    let aq2 := timD (fun u => { u with state := .acquiring, everLocked := true })
    all [hubUp lk.dev, answers .estimateTimeout lk (fun t => only [.tim, .kmd, .hif, .health, .cnt] lk t && t.dev.tim.state == .holdover &&
        decide (2 ^ 18 ≤ t.dev.tim.now) && grew (objCnt 0x303005) lk.dev t.dev),
      answers .estimateTimeout aq (fun t => t.dev.tim.state == .unlocked), answers .estimateTimeout aq2 (fun t => t.dev.tim.state == .lost),
      answers .estimateTimeout sHold (fun t => only [.tim, .kmd, .hif, .cnt] sHold t && t.dev.tim.state == .holdover && !t.dev.tim.estPresent),
      answers .holdoverLimit sHold (fun t => t.dev.tim.state == .lost && t.dev.health.degraded.getLsbD 6 && grew (objCnt 0x303006) sHold.dev t.dev),
      answers .expressBoundWithdraw sHold (fun t => only [.tim, .kmd, .hif, .cnt] sHold t && !(boundInForce t.dev.tim) && t.dev.tim.expressWithdrawn),
      idle .holdoverLimit lk, idle .expressBoundWithdraw lk] = true := by decide +kernel

/-- One port's estimate, in half nanoseconds; at 32 the median is 64 quarter nanoseconds, the bound of 16 ns. -/
def estD (st : LockState) (bad ok : Nat) (e : Option Int) : State :=
  timD (fun u => { u with state := st, badRun := bad, okRun := ok, count := 1000, ports := match e with
    | some v => [(5, { timePortDefault with est := some v, masterValid := true })]
    | none => [] })

theorem witness_CombinedEstimates : all [
  median4 (periodEstimates (estD .locked 0 0 (some 32)).dev) == some 64, median4 (periodEstimates (estD .locked 0 0 none).dev) == none,
  answers .combinedEstimate (estD .locked 0 0 none) (fun t => t.dev.tim.state == .locked && t.dev.tim.count == 1000),
  answers .combinedEstimate (estD .unlocked 0 0 (some 32)) (fun t => t.dev.tim.state == .acquiring && t.dev.tim.count == 984),
  answers .combinedEstimate (estD .locked 3 0 (some 32)) (fun t => t.dev.tim.state == .locked && t.dev.tim.slew == 16 && t.dev.tim.badRun == 0),
  answers .combinedEstimate (estD .locked 2 0 (some 33)) (fun t => t.dev.tim.state == .locked && t.dev.tim.badRun == 3),
  answers .combinedEstimate (estD .locked 3 0 (some 33)) (fun t => t.dev.tim.state == .acquiring),
  answers .combinedEstimate (estD .holdover 0 15 (some (-8))) (fun t => t.dev.tim.state == .locked && t.dev.tim.slew == -4),
  answers .combinedEstimate (estD .holdover 0 14 (some (-8))) (fun t => t.dev.tim.state == .holdover && t.dev.tim.okRun == 15)] = true := by decide +kernel

/-- The count 64 ns and 65 ns from a multiple of 2^20, after it and before it. -/
def pulseD (st : LockState) (n : W64) : State := withObj 0x301005 1 (timD (fun u => { u with state := st, count := n, pulseHeld := true }))

theorem witness_Pulses : all [
  objGet (pulseD .locked 64).dev 0x301005 == 1, idle .rtPulseEdge (withObj 0x301005 0 sHold),
  answers .rtPulseEdge (pulseD .locked 64) (fun t => only [.tim] (pulseD .locked 64) t && t.dev.tim.slew == 0),
  answers .rtPulseEdge (pulseD .holdover 0xFFFC0) (fun t => t.dev.tim.pulseHeld && t.dev.tim.slew == -64 && t.dev.tim.state == .holdover),
  answers .rtPulseEdge (pulseD .locked 65) (fun t => grew (objCnt 0x303004) (pulseD .locked 65).dev t.dev && t.dev.tim.evt.getLsbD 5),
  answers .rtPulseEdge (pulseD .holdover 0xFFFBF) (fun t => !t.dev.tim.pulseHeld && t.dev.tim.evt.getLsbD 5),
  (let s := { pulseD .locked 64 with dev := { (pulseD .locked 64).dev with jtag := { Jtag.reset with ir := 0 } } }
   extestOn s.dev && idle .rtPulseEdge s),
  answers .rtPulseAbsent (pulseD .holdover 0) (fun t => t.dev.tim.pulseAbsent && !t.dev.tim.pulseHeld)] = true := by decide +kernel

/-- Stamps t3 = 0, t2 = 100, t1 = 0 against the count 200; request 5; master valid; and the same with a wrong check. -/
def syncCell (good : Bool) : Cell :=
  let b := leBytes 8 0 ++ leBytes 8 100 ++ leBytes 8 0 ++ leBytes 4 5 ++ List.replicate 5 0 ++ [1, 1] ++ List.replicate 25 0
  let c : Cell := { cellZero with op := 0x3E, payload := payloadOf b }
  { c with payload := setField c.payload 480 32 (if good then (timeCheck c).toNat else (timeCheck c).toNat + 1) }
def timeD (x : TimePort) : State :=
  withObj 0x301004 0x3F (liveD (fun d => { d with tim := { d.tim with count := 200, ports := [(5, x)] }
                                                  ports := { d.ports with port := [(11, { portDefault with st := .active })] } }))
def tp0 : TimePort := { timePortDefault with reqNext := 6, reqs := [(5, 0), (4, 0), (3, 0), (2, 0)] }

theorem witness_TimeCells : all [
  portLocal (timeD tp0).dev 11, (payNat (syncCell true) 60 4) == (timeCheck (syncCell true)).toNat, payNat (syncCell true) 24 4 == 5,
  payNat (syncCell true) 8 8 == 100, payNat (syncCell true) 34 1 % 2 == 1, delayOk [] 300,
  answers (.timeSync 5 (syncCell true)) (timeD tp0) (fun t => only [.tim, .cnt] (timeD tp0) t && (tpGet t.dev 5).est == some 100 && (tpGet t.dev 5).reqDue &&
    grows [objCnt 0x303001] (timeD tp0).dev t.dev),
  (let at_ (n : Nat) : State := { timeD tp0 with dev := { (timeD tp0).dev with tim := { (timeD tp0).dev.tim with now := n } } }
   answers (.timeSync 5 (syncCell true)) (at_ (2 ^ 18)) (fun t => (tpGet t.dev 5).est == some 100) &&
   answers (.timeSync 5 (syncCell true)) (at_ (2 ^ 18 + 1)) (fun t => (tpGet t.dev 5).est == none)),
  answers (.timeSync 5 (syncCell false)) (timeD tp0) (fun t => (tpGet t.dev 5).est == none && (tpGet t.dev 5).reqDue &&
    grows [objCnt 0x303001, objCnt 0x303002] (timeD tp0).dev t.dev),
  let s := timeD { tp0 with reqDue := true }
  answers (.timeReq 5) s (fun t => only [.tim, .rtr] s t && (tpGet t.dev 5).reqs == tp0.reqs && (tpGet t.dev 5).reqNext == 7 &&
    (spGet [] t.dev.rtr.outq 11) == [(ownInput, timeReqCell s.dev 6)]),
  let s := timeD { tp0 with outRun := 16 }
  answers (.timePortReject 5) s (fun t => (tpGet t.dev 5).rejected && t.dev.tim.evt.getLsbD 4 && t.dev.kmd.ev.map (·.code) == [0x3004] &&
    grew (objCnt 0x303003) s.dev t.dev),
  answers (.timePortReject 5) (timeD { tp0 with rejected := true, inRun := 16 }) (fun t => !(tpGet t.dev 5).rejected),
  idle (.timePortReject 5) (timeD { tp0 with outRun := 15 })] = true := by decide +kernel

/-! ### Cells at the NIC -/

/-- Slot 3 holds context 0x123 of generation 5 with every counter; its ring of 64 records begins at 0x010000010000 and its
consumer word at 0x010000020000; its first aperture is the first 2 MiB of mezzanine memory. -/
def ctxVal (id gen count : Nat) : BitVec 256 :=
  BitVec.ofNat 256 (2 ^ 255 + id * 2 ^ 238 + gen * 2 ^ 234 + count * 2 ^ 209 + 0x010000010000 * 2 ^ 128 + 0x010000020000 * 2 ^ 80)
def sNic : State := liveD (fun d => { d with
  nic := { d.nic with ctxCfg := [(3, ctxVal 0x123 5 4096)] }
  regs := [(nicBase + 0x4300, 0xC000010000000000), (nicBase + 0x4308, 0x0000010000000000)] })
def nicD (g : Nic → Nic) : State := { sNic with dev := { sNic.dev with nic := g sNic.dev.nic } }
def mz : Nat := 0x010000000000

def cellOf (op : BitVec 6) (len : BitVec 6) (b : List Byte) : Cell :=
  { cellZero with dst := 0xFF, src := 0x101, cls := 1, op := op, ctx := 0x123, gen := 5, seq := 9, hops := 60, len := len
                  counter := 4095, offset := BitVec.ofNat 35 (mz / 64), payload := payloadOf b }
/-- The checks that need no address pass. -/
def passes (c : Cell) (n : Nat) (d : Dev) : Bool :=
  !c.bounce && (match k3Check c d with | none => true | some _ => false) && slotOfId d c.ctx.toNat == some n && !(scrubbing d n) &&
    ctxWord d n % 16 == c.gen.toNat && (!c.replay || !(d.nic.expFilter.contains (cellName c)))
def owed (c : Cell) (d : Dev) : Bool :=
  d.nic.acks.any (fun e => e.src == c.src.toNat && e.ctx == c.ctx.toNat && e.gen == c.gen.toNat && e.seqs.contains c.seq.toNat) ||
    d.nic.txq.any (fun a => a.op == 0xC && a.dst == c.src)
/-- 61 bytes of 0x5A and the position 3 in the position byte: the granule's end. -/
def partBytes (pos : Byte) : List Byte := List.replicate 63 0x5A ++ [pos]

theorem witness_ArrivingWrites : all [
  passes (cellOf 1 63 (partBytes 7)) 3 sNic.dev, keyOf sNic.dev mz == some mz, aperture sNic.dev 3 mz true, ctrOwned sNic.dev 3 4095,
  untriggered sNic.dev 4095, !(pageRetired sNic.dev mz),
  answers (.write (cellOf 1 63 (partBytes 7))) sNic (fun t => only [.mem, .memc, .rtr, .nic, .ports, .kmd, .cnt] sNic t &&
    owed (cellOf 1 63 (partBytes 7)) t.dev && t.mem.bytes.length == 64 && t.mem.byte (mz + 63) == 7 && t.dev.nic.ctr.isEmpty),
  answers (.writeC (cellOf 2 0 (partBytes 7))) sNic (fun t => t.mem.bytes == [(mz, 0x5A)] && ctrGet t.dev 4095 == ⟨1, false⟩),
  answers (.writePart (cellOf 3 60 (partBytes 3))) sNic (fun t => t.mem.bytes == (List.range 61).map (fun i => (mz + 3 + i, (0x5A : Byte))) ∧ owed (cellOf 3 60 []) t.dev),
  answers (.writePartC { cellOf 4 0 (partBytes 63) with poison := true }) sNic (fun t => t.mem.bytes == [(mz + 63, 0x5A)] && ctrGet t.dev 4095 == ⟨1, true⟩),
  answers (.writePart (cellOf 3 60 (partBytes 4))) sNic (fun t => only [.rtr, .nic, .kmd, .cnt] sNic t &&
    t.dev.nic.txq == [noticeOf 2 (cellOf 3 60 (partBytes 4))] && grew (nicBase + 0x860) sNic.dev t.dev),
  answers (.write { cellOf 1 63 [] with offset := 0 }) sNic (fun t => t.dev.nic.txq.length == 1 && t.mem == sNic.mem),
  answers (.writeC (cellOf 2 0 (partBytes 7))) { sNic with dev := { sNic.dev with nic := { sNic.dev.nic with ctxCfg := [(3, ctxVal 0x123 5 4095)] } } }
    (fun t => t.dev.nic.txq == [noticeOf 2 (cellOf 2 0 (partBytes 7))]),
  slotOfId sNic.dev 0x124 == none, answers (.write { cellOf 1 63 [] with ctx := 0x124 }) sNic (fun t =>
    t.dev.nic.txq == [noticeOf 3 { cellOf 1 63 [] with ctx := 0x124 }] && grew (nicBase + 0x858) sNic.dev t.dev),
  answers (.notify (cellOf 5 0 [])) sNic (fun t => ctrGet t.dev 4095 == ⟨1, false⟩ && owed (cellOf 5 0 []) t.dev && t.mem == sNic.mem),
  answers (.notify { cellOf 5 0 [] with poison := true }) sNic (fun t => ctrGet t.dev 4095 == ⟨0, true⟩),
  answers (.notify (cellOf 5 0 [])) { sNic with dev := { sNic.dev with nic := { sNic.dev.nic with ctxCfg := [(3, ctxVal 0x123 5 4095)] } } }
    (fun t => t.dev.nic.txq == [noticeOf 2 (cellOf 5 0 [])] && t.dev.nic.ctr.isEmpty)] = true := by decide +kernel

/-- Memory that holds 5 at 0x010000000038, its granule warm. -/
def sVal : State := { sNic with mem := ⟨[(mz + 0x38, 5)], [], []⟩ }
def atomCell (fn ty pos : Byte) (x : Nat) : Cell := cellOf 0xA 63 (leBytes 8 x ++ leBytes 8 5 ++ [fn, ty, 0, 0, 0, 0, 0, 0, pos, 0])
/-- A fetch-add of 7 at 56 whose byte 25 is n. -/
def atomWith (n : Byte) : Cell := cellOf 0xA 63 (leBytes 8 7 ++ leBytes 8 5 ++ [0, 0, 0, 0, 0, 0, 0, 0, 56, n])
def heldA (pa : Nat) : HeldAtomic := ⟨atomCell 5 1 0 0x3F800000, 3, pa, 0, 5⟩
def sRepro : State := { sVal with dev := { sVal.dev with nic := { sVal.dev.nic with repro := 8 } } }

theorem witness_ArrivingRequests : all [
  passes (cellOf 8 3 [0, 0, 0, 0, 0, 60]) 3 sVal.dev, aperture sVal.dev 3 mz false, payNat (cellOf 8 3 [0, 0, 0, 0, 0, 60]) 5 1 == 60,
  answers (.getReq (cellOf 8 7 [0, 0, 0, 0, 0, 56])) sVal (fun t => t.mem == sVal.mem && t.dev.nic.txq.map (fun a => (a.op, a.dst, a.seq, payNat a 0 8)) ==
    [(9, 0x101, 9, 5)]),
  passes (atomCell 0 0 56 7) 3 sVal.dev, (granAt sVal (mz + 56)).1 == .ok,
  [((0 : Byte), (0 : Byte), 7, 12), (1, 0, 4, 4), (2, 0, 8, 13), (3, 0, 2 ^ 64 - 1, 2 ^ 64 - 1), (4, 0, 99, 99)].all (fun (fn, ty, x, v) =>
    answers (.atomicReq (atomCell fn ty 56 x)) sVal (fun t => (List.range 8).map (fun i => t.mem.byte (mz + 56 + i)) == leBytes 8 v &&
      t.dev.nic.txq.map (fun a => (a.op, payNat a 0 8)) == [(0xB, 5)])),
  [(atomCell 6 0 56 0), (atomCell 0 1 56 0), (atomCell 5 0 56 0), (atomCell 0 0 52 0), (atomWith 2)].all (fun c => answers (.atomicReq c) sVal (fun t =>
    only [.rtr, .nic, .kmd, .cnt] sVal t && t.dev.nic.txq == [noticeOf 2 c])),
  answers (.atomicReq (atomWith 1)) sVal (fun t => t.mem.byte (mz + 56) == 12 && t.dev.nic.txq.map (·.op) == [0xB]),
  !(reproSlot sVal.dev 3), answers (.atomicReq (atomCell 5 1 60 0x3F800000)) sVal (fun t => (List.range 4).map (fun i => t.mem.byte (mz + 60 + i)) == leBytes 4 0x3F800000),
  reproSlot sRepro.dev 3, answers (.atomicReq (atomCell 5 2 62 0x3F80)) sRepro (fun t => t.dev.nic.heldAtomics.map (·.pa) == [mz + 62] && t.mem == sRepro.mem &&
    t.dev.nic.txq.isEmpty),
  answers .reproAtomicHold { sRepro with dev := { sRepro.dev with nic := { sRepro.dev.nic with heldAtomics := [heldA (mz + 60)] } } } (fun t =>
    t.dev.nic.heldAtomics.isEmpty && (List.range 4).map (fun i => t.mem.byte (mz + 60 + i)) == leBytes 4 0x3F800000)] = true := by decide +kernel

def item0 : Item := ⟨8, 3, 0x1235, 1, 77, 1, 0x101, none, false, none, false, 2, 0, 0, 0, 0, false, false, ⟨none, none, none⟩⟩
def outOf (op : BitVec 6) (p : AnsPlace) : OutCell := ⟨{ cellOf op 7 [] with dst := 0x101, src := 0xFF }, .item 8, p, 0, 0, false, 0, false⟩
def sOut (o : OutCell) : State := nicD (fun n => { n with items := [item0], resend := [o] })
/-- What the other end sends back for it. -/
def backOf (op : BitVec 6) (b : List Byte) : Cell := { cellOf op 7 b with src := 0x101, dst := 0xFF }
def itemNow (t : State) : Option (Nat × Nat × Nat × Nat) := (itemFind t.dev 8).map (fun x => (x.confirmed, x.failed, x.firstFail, x.firstCause))

theorem witness_AnswersAndTimeouts :
    let o := outOf 8 (.bytes (mz + 56))
    let w := outOf 1 .none
    let x : OutCell := { w with cell := { w.cell with cls := 0 } }
    let k : OutCell := { w with cell := { w.cell with k3 := true } }
    all [outFind (sOut o).dev 0x101 0x123 5 9 == some o, (itemFind (sOut o).dev 8).map (·.cells) == some 2, (sOut o).dev.nic.waitq.isEmpty,
      answers (.getRsp (backOf 9 [1, 2, 3, 4, 5, 6, 7, 8])) (sOut o) (fun t => only [.mem, .memc, .rtr, .nic, .ports, .kmd, .cnt] (sOut o) t && t.dev.nic.resend.isEmpty && itemNow t == some (1, 0, 0, 0) &&
        t.mem.bytes == (List.range 8).map (fun i => (mz + 56 + i, BitVec.ofNat 8 (i + 1)))),
      answers (.atomicRsp (backOf 0xB [])) (sOut (outOf 0xA .none)) (fun t => t.dev.nic.resend.isEmpty && itemNow t == some (1, 0, 0, 0)),
      answers (.ack (backOf 0xC [1, 0, 9, 0])) (sOut w) (fun t => only [.rtr, .nic, .ports, .kmd, .cnt] (sOut w) t && t.dev.nic.resend.isEmpty && itemNow t == some (1, 0, 0, 0) && grew (nicBase + 0x818) (sOut w).dev t.dev),
      decide (0 < objGet (sOut w).dev 0x420005), answers (.bounceNotice { backOf 1 [] with bounce := true, len := 6 }) (sOut w) (fun t => only [.rtr, .nic, .kmd, .cnt] (sOut w) t &&
        t.dev.nic.resend.map (·.resends) == [1] && t.dev.nic.txq.length == 1 && grew (nicBase + 0x830) (sOut w).dev t.dev),
      [(1, 6), (2, 6), (3, 4), (4, 1), (5, 3), (8, 1)].all (fun (cause, st) => answers (.bounceNotice { backOf 1 [] with bounce := true, len := BitVec.ofNat 6 cause })
        (sOut w) (fun t => t.dev.nic.resend.isEmpty && itemNow t == some (0, 1, st, cause))),
      answers (.itemTimeout 0x101 0x123 5 9) (sOut w) (fun t => only [.nic, .cnt] (sOut w) t && itemNow t == some (0, 1, 7, 0xFF) && grew (nicBase + 0x910) (sOut w).dev t.dev),
      answers (.itemTimeout 0x101 0x123 5 9) (sOut { w with lostDepart := true }) (fun t => itemNow t == some (0, 1, 3, 0xFF)),
      answers (.k3Resend 0x101 0x123 5 9) (sOut k) (fun t => only [.rtr, .kmd, .cnt] (sOut k) { t with dev := { t.dev with nic := (sOut k).dev.nic } } && t.dev.nic.resend.map (·.k3sends) == [1] && t.dev.nic.txq.map (·.replay) == [true] &&
        grew (nicBase + 0x8A8) (sOut k).dev t.dev),
      answers (.k3Resend 0x101 0x123 5 9) (sOut { k with k3sends := 3 }) (fun t => only [.nic, .cnt] (sOut k) { t with dev := { t.dev with nic := (sOut k).dev.nic } } && itemNow t == some (0, 1, 7, 0xFF)),
      answers (.earlyFullRetry 0x101 0x123 5 9) (sOut { w with parked := true }) (fun t => only [.rtr, .nic, .kmd, .cnt] (sOut { w with parked := true }) t && t.dev.nic.resend.map (fun e => (e.parked, e.early)) == [(false, 1)] &&
        t.dev.nic.txq.length == 1 && grew (nicBase + 0x978) (sOut w).dev t.dev && grew (nicBase + 0x830) (sOut w).dev t.dev),
      !(expRoom (sOut x).dev 0x101), answers (.bounceNotice { backOf 1 [] with bounce := true, len := 6 }) (sOut x) (fun t =>
        t.dev.nic.expq.map (·.resends) == [1] && t.dev.nic.txq.isEmpty && grew (nicBase + 0x830) (sOut x).dev t.dev),
      idle (.earlyFullRetry 0x101 0x123 5 9) (sOut w)] = true := by decide +kernel

theorem witness_AcksAndFlows :
    let e : AckEnt := ⟨0x101, 0x123, 5, 1, [9, 65535]⟩
    let s := nicD (fun n => { n with acks := [e], flows := [⟨0x101, 0x123, 5, 10⟩, ⟨0x102, 0x123, 5, 10⟩] })
    let busy := nicD (fun n => { n with resend := [outOf 1 .none], flows := [⟨0x101, 0x123, 5, 10⟩] })
    all [answers (.ackDelay 0x101 0x123 5 1) s (fun t => only [.nic, .cnt] s t && t.dev.nic.acks.isEmpty && grows [nicBase + 0x810] s.dev t.dev &&
        t.dev.nic.txq.map (fun a => (a.op, a.dst, payNat a 0 2, payNat a 2 2, payNat a 4 2)) == [(0xC, 0x101, 2, 9, 65535)]),
      answers (.flowForget 0x101 0x123 5) s (fun t => t.dev.nic.flows == [⟨0x102, 0x123, 5, 10⟩]), idle (.flowForget 0x101 0x123 5) busy,
      answers (.mgmt (cellOf 0x20 0 [])) { s with dev := { s.dev with rtr := { s.dev.rtr with toHmp := [cellOf 0x20 0 []] } } } (fun t => t.dev.rtr.toHmp.isEmpty)] = true := by decide +kernel

/-! ### Descriptors and collective operations -/

/-- Slot 3 translates 0xA00000 to the first page of mezzanine memory; its groups stand at 0x010000030000. -/
def ctxGrp : BitVec 256 := ctxVal 0x123 5 4096 ||| BitVec.ofNat 256 (0x010000030000 * 2 ^ 16)
/-- Group 1: rank 1 of the nodes 0x101 and 0x0FF, listed at 0xA00400; local data at 0xA00000; a consumer word of 0. -/
def memDesc : Memory := ⟨[(mz, 0x11), (mz + 1, 0x22), (mz + 99, 0x99), (mz + 0x400, 1), (mz + 0x401, 1), (mz + 0x402, 0xFF),
  (0x010000030010, 2), (0x010000030012, 1), (0x010000030019, 0x04), (0x01000003001A, 0xA0)], [], []⟩
def sDesc (e : List DqEnt) (g : Nic → Nic) : State := { sNic with
  mem := memDesc
  dev := { sNic.dev with
    memc := { sNic.dev.memc with xltCache := [⟨3, 1, 5, BitVec.ofNat 64 (mz + 15)⟩] }
    nic := g { sNic.dev.nic with ctxCfg := [(3, ctxGrp)], dq := e } } }

def descBytes (l : List (Nat × Nat × Nat)) : BitVec 512 := l.foldl (fun x e => setField x (8 * e.1) (8 * e.2.1) e.2.2) 0
/-- Op, class 1, destination 0x101, local 0xA00000, remote 0x20, length, tag 77. -/
def dataDesc (op len : Nat) : BitVec 512 :=
  descBytes [(0, 1, op), (1, 1, 1), (2, 2, 0x101), (8, 8, 0xA00000), (16, 8, 0x20), (24, 8, len), (32, 8, 77)]
def atomDesc : BitVec 512 := descBytes [(0, 1, 3), (1, 1, 1), (2, 2, 0x101), (8, 8, 0), (16, 8, 0x78), (24, 2, 4), (32, 8, 77), (40, 8, 5), (48, 8, 6)]
def noteDesc : BitVec 512 := descBytes [(0, 1, 4), (1, 1, 0x11), (2, 2, 0x101), (4, 2, 0xFFE), (32, 8, 77)]
def ent (x : BitVec 512) : DqEnt := ⟨3, ⟨none, none, none⟩, none, x, none⟩
def getDesc : BitVec 512 := descBytes [(0, 1, 2), (1, 1, 1), (2, 2, 0x101), (8, 8, 0xA00020), (16, 8, 0x20), (24, 8, 64), (32, 8, 77)]
/-- A send on complete of two bytes. -/
def socEnt : DqEnt := { ent (descBytes [(0, 1, 1), (1, 1, 1), (2, 2, 0x101), (16, 8, 0x40), (32, 8, 77)]) with image := some [⟨0, [1, 2]⟩] }
def headOk (e : DqEnt) (soc : Bool) : Bool :=
  nicHead (sDesc [e] id) == some e && descClass e.desc != 0 &&
    (match (dataCheck (sDesc [] id) 3 e.desc none soc true).1 with | .ok _ => true | .error _ => false)
def sentCells (t : State) : List (BitVec 6 × Nat × Nat) := t.dev.nic.txq.map (fun c => (c.op, c.offset.toNat, c.len.toNat + 1))

theorem witness_DataDescriptors : all [
  headOk (ent (dataDesc 1 100)) false, headOk socEnt true,
  answers (.put none) (sDesc [ent (dataDesc 1 100)] id) (fun t => sentCells t == [(3, 0, 32), (1, 1, 64), (1, 2, 4)] && t.dev.nic.dq.isEmpty &&
    (writeSpans false 0x20 100).length == 3 && t.dev.nic.items.map (fun i => (i.cells, i.tag, i.kind, i.slot)) == [(3, 77, 0, 3)] && t.dev.nic.resend.length == 3 &&
    t.dev.nic.txq.map (fun c => payByte c 0) == [0x11, 0, 0] && (t.dev.nic.txq.map (fun c => payByte c 3)).getLast? == some 0x99),
  headOk (ent getDesc) false,
  answers .get (sDesc [ent getDesc] id) (fun t =>
    sentCells t == [(8, 0, 32), (8, 1, 32)] && t.dev.nic.items.map (·.cells) == [2] && t.mem == memDesc),
  headOk (ent atomDesc) false, answers .atomic (sDesc [ent atomDesc] id) (fun t => t.dev.nic.txq.map (fun c => (c.op, c.offset, payNat c 0 8, payNat c 8 8, payNat c 16 1,
    payNat c 17 1, payNat c 24 1)) == [(0xA, 1, 5, 6, 4, 0, 0x38)] && t.dev.nic.items.map (·.cells) == [1]),
  headOk (ent noteDesc) false, answers .notifyDescriptor (sDesc [ent noteDesc] id) (fun t => t.dev.nic.txq.map (fun c => (c.op, c.last, c.counter)) == [(5, true, 0xFFE)]),
  answers (.put none) (sDesc [socEnt] id) (fun t =>
    t.dev.nic.txq.length == 1 && t.dev.nic.items.length == 1),
  answers (.put none) (sDesc [ent (dataDesc 1 0)] id) (fun t => t.dev.nic.dq.isEmpty && t.dev.nic.items.isEmpty && t.dev.nic.txq.isEmpty &&
    spGet 0 t.dev.nic.cqProd 3 == 1 && t.mem.byte (0x010000010008) == 0xD && t.mem.byte (0x01000001000A) == 0x41)] = true := by decide +kernel

/-- A collective descriptor of group 1, number 7: op, shape, root. -/
def collDesc (op len shape root cap : Nat) : BitVec 512 :=
  descBytes [(0, 1, op), (1, 1, 1), (2, 2, 1), (8, 8, 0xA00000), (16, 8, 0xA00800), (24, 8, len), (32, 8, 77), (40, 1, 7), (41, 1, shape), (42, 2, root), (44, 4, cap),
    (48, 8, 5000)]
def key0 : CollKey := (0x1235, 1, 7)
def contribDesc : BitVec 512 := descBytes [(0, 1, 0x13), (1, 1, 1), (2, 2, 1), (8, 8, 0xA00000), (16, 8, 0x40), (24, 8, 64), (40, 1, 7)]
def startOk (x : BitVec 512) : Bool :=
  let s := sDesc [] id
  let q := readGroup 3 (cdGroup x) s
  q.1.any (fun g => g.rank == 1 && g.nodes == [0x101, 0xFF]) && (startCause q.2 (ent x) x q.1).1 == none

/-- What a started operation of group 1 looks like: rank 1 of two, root 0. -/
def inst0 (kind : CollKind) : Inst where
  slot := 3
  ctx := 0x1235
  group := 1
  num := 7
  kind := kind
  tree := true
  fan := 2
  bf16 := false
  contrib := true
  root := 0
  rank := 1
  nodes := [0x101, 0xFF]
  dst := mz + 0x800
  len := 128
  cap := 1
  deadline := 0
  resCtr := none
  lctr := none
  tag := 77
  stamp := false
  src := ⟨none, none, none⟩
  ownRead := true
  got := []
  chunks := []
  xslots := []
  unacked := 0
  confirmed := 0
  finishSent := false
  finished := []
  newUe := false
  poison := false
  overflow := 0
  finishAt := none
/-- The same with this module as the root and the other node as rank 1, whose partial is an input. -/
def instRoot : Inst := { inst0 .reduce with rank := 0, nodes := [0xFF, 0x101] }

theorem witness_CollectiveStarts : all [startOk (collDesc 0x10 128 0x12 0 0), startOk (collDesc 0x11 128 0x92 0 0), startOk (setField (collDesc 0x12 64 0 0 1) 64 64 0xA01000),
  answers (.bcast none) (sDesc [ent (collDesc 0x10 128 0x12 0 0)] id) (fun t => t.dev.nic.txq.isEmpty && t.dev.nic.insts.map (fun i => (i.key, i.rank, i.root, i.len, i.dst)) ==
    [(key0, 1, 0, 128, mz + 0x800)] && grew (nicBase + 0x950) sNic.dev t.dev && only [.nic, .memc, .lnd, .cnt] (sDesc [ent (collDesc 0x10 128 0x12 0 0)] id) t),
  answers (.reduce none) (sDesc [ent (collDesc 0x11 128 0x92 0 0)] id) (fun t => t.dev.nic.txq.isEmpty && t.dev.nic.insts.map (·.key) == [key0]),
  (peekSends (sDesc [] id) 3 0xA01000 2).1.map Prod.fst == [0, 0],
  answers (.exchange none) (sDesc [ent (setField (collDesc 0x12 64 0 0 1) 64 64 0xA01000)] id) (fun t => t.dev.nic.insts.map (·.key) == [key0] &&
    t.dev.nic.txq.map (fun c => (c.op, c.cls, payNat c 0 4)) == [(0x11, 1, 0), (0x11, 1, 0)]),
  (descFieldCause contribDesc false true).isNone,
  answers (.contrib none) (sDesc [ent contribDesc] id) (fun t => t.dev.nic.contribWait == [(ent contribDesc, mz)] && t.dev.nic.txq.isEmpty),
  instRoot.inputs == [1], instRoot.me == 0, decide (1 < instRoot.nchunks),
  answers (.contrib none) (sDesc [ent contribDesc] (fun n => { n with insts := [instRoot] })) (fun t => (instFind t.dev key0).any (fun z =>
    (z.chunk 1).arr == [(0, inputVals false (peekBytes (sDesc [] id) mz 64))] && !(z.chunk 1).done))] = true := by decide +kernel

def collOf (op : BitVec 6) (ch len : Nat) (b : List Byte) : Cell :=
  { cellZero with dst := 0xFF, src := 0x101, cls := 1, op := op, ctx := 0x123, gen := 5, seq := 9, len := BitVec.ofNat 6 (len - 1), payload := payloadOf b,
                  offset := BitVec.ofNat 35 (ch + 7 * 2 ^ 15 + 2 ^ 23) }
def sInst (i : Inst) : State := sDesc [] (fun n => { n with insts := [i] })

theorem witness_CollectiveCells :
    let c := collOf 0x10 0 64 [1, 2]
    let fin (n : Byte) := collOf 0x12 0 64 [n, 0, 0, 0, 3]
    let ended (t : State) : Bool := (instFind t.dev key0).isNone && t.dev.nic.doneInst.contains key0
    all [collKeyOf c == key0, collChunk (collOf 0x10 1 64 []) == 1, passes c 3 (sInst (inst0 .bcast)).dev, (inst0 .bcast).parent == some 0,
      decide (vestUsed (sInst (inst0 .bcast)).dev < vestCap), (inst0 .bcast).rankOfNode 0x101 == some 0, (inst0 .bcast).nchunks == 2,
      answers (.collData c) (sInst (inst0 .bcast)) (fun t => (instFind t.dev key0).any (fun y => y.got == [0]) && owed c t.dev && t.mem.byte (mz + 0x800) == 1 &&
        t.mem.byte (mz + 0x801) == 2 && t.mem.byte mz == 0x11),
      instRoot.memberOrder == [0, 1], answers (.collData c) (sInst instRoot) (fun t => (instFind t.dev key0).any (fun y => (y.chunk 0).arr.map (·.1) == [1] && !(y.chunk 0).done) && owed c t.dev),
      answers (.collData c) (sInst (inst0 .exchange)) (fun t => (instFind t.dev key0).any (fun y => (xslotGet y 0).items == [(0, some 0)] && (xslotGet y 0).placed == 1)),
      answers (.collHdr (collOf 0x11 0 64 [1])) (sInst (inst0 .exchange)) (fun t => (instFind t.dev key0).any (fun y => (xslotGet y 0).sent == some 1)),
      !(inst0 .bcast).partDone, answers (.finish (fin 1)) (sInst (inst0 .bcast)) (fun t => (instFind t.dev key0).any (fun y => y.finished == [0]) && owed (fin 1) t.dev),
      answers (.doneMsg (fin 2)) (sInst (inst0 .bcast)) ended, answers (.abortMsg (fin 3)) (sInst (inst0 .bcast)) ended,
      answers (.overflow (fin 4)) (sInst (inst0 .bcast)) (fun t => (instFind t.dev key0).any (fun y => y.overflow == 3)),
      answers (.collData c) (sDesc [] id) (fun t => t.dev.nic.vest == [c] && owed c t.dev),
      answers (.overflow (fin 4)) (sDesc [] (fun n => { n with doneInst := [key0] })) (fun t => t.dev.nic.vest.isEmpty && grew (nicBase + 0x980) sNic.dev t.dev),
      answers (.collDoneTimeout 0x1235 1 7) (sInst { inst0 .bcast with finishSent := true }) ended,
      idle (.collDoneTimeout 0x1235 1 7) (sInst (inst0 .bcast)), idle (.collDoneTimeout 0x1235 1 8) (sInst (inst0 .bcast))] = true := by decide +kernel

def express : OutCell := { outOf 1 .none with cell := { (outOf 1 .none).cell with cls := 0 } }
/-- Class 0 may leave through port 2 to node 0x101. -/
def sExp : State := { nicD (fun n => { n with expq := [express] }) with dev := { (nicD (fun n => { n with expq := [express] })).dev with
  rtr := { sNic.dev.rtr with table := [(0x101, 0)] }
  kmd := { sNic.dev.kmd with blobs := [(0x420004, List.replicate 4096 1)] } } }
def lockRec (n : Nat) : Cell := cellOf 0x18 63 (leBytes 2 n ++ leBytes 2 0x1FFF ++ leBytes 4 5 ++ leBytes 8 6 ++
  (leBytes 2 0xFFFD ++ List.replicate 14 0) ++ (leBytes 2 0xFFFD ++ List.replicate 14 0) ++ leBytes 2 0xFFFD)
def sLs (m : List LsRec) : State := { sNic with dev := { sNic.dev with ls := { LockStep.reset with state := 2, partner := 0x101, ctx := 0x123, mine := m } } }

theorem witness_WindowsAndCounters :
    let dead := { inst0 .bcast with deadline := 64, len := 64 }
    let sDead := { sDesc [] (fun n => { n with insts := [dead] }) with dev := { (sDesc [] (fun n => { n with insts := [dead] })).dev with
      tim := { sNic.dev.tim with state := .locked, count := 1 } } }
    let full := { sDesc [] id with mem := ⟨[(0x010000020000, 1)], [], []⟩ }
    all [hubUp sNic.dev, sNic.dev.tim.slew == 0,
      answers .expressWindowBoundary { sNic with dev := { sNic.dev with tim := { sNic.dev.tim with count := 1 } } } (fun t => t.dev.tim.count == 1024 && t.dev.nic.expBudget == objGet sNic.dev 0x420003),
      answers .deadlineReached { sNic with dev := { sNic.dev with tim := { sNic.dev.tim with count := 1 } } } (fun t => t.dev.tim.count == 64),
      !dead.partDone, ceilDiv dead.deadline 64 * 64 == 64, answers .deadlineReached sDead (fun t => t.dev.nic.insts.isEmpty && t.dev.nic.doneInst.contains key0 &&
        grew (nicBase + 0x960) sDead.dev t.dev && t.dev.nic.txq.map (fun c => (c.op, payNat c 0 1, payNat c 1 1)) == [(0x12, 3, 8)]),
      slotOf sNic.dev 0x1235 == some 3, answers (.counterUpdate 4095 0x1235 .increment) sNic (fun t => ctrGet t.dev 4095 == ⟨1, false⟩ && only [.nic, .cnt] sNic t),
      answers (.counterUpdate 0 0x1235 .errorFlag) sNic (fun t => ctrGet t.dev 0 == ⟨0, true⟩),
      slotOf { sNic.dev with nic := { sNic.dev.nic with ctxCfg := [(3, ctxVal 0x123 5 7)] } } 0x1235 == some 3,
      idle (.counterUpdate 7 0x1235 .increment) (nicD (fun n => { n with ctxCfg := [(3, ctxVal 0x123 5 7)] })),
      idle (.cqRoom 3) sNic, (cqRoom sNic 3).1, answers (.cqRoom 3) (sDesc [] (fun n => { n with held := [(3, [⟨0xABCD, none⟩])], cqProd := [(3, 63)] })) (fun t =>
        spGet [] t.dev.nic.held 3 == [] && spGet 0 t.dev.nic.cqProd 3 == 64 && t.mem.byte (0x010000010000 + 32 * 63) == 0xCD && t.mem.byte mz == 0x11),
      !(cqRoom { full with dev := { full.dev with nic := { full.dev.nic with cqProd := [(3, 65)] } } } 3).1,
      answers (.cqRoom 3) { full with dev := { full.dev with nic := { full.dev.nic with cqProd := [(3, 65)], held := [(3, [⟨0xABCD, none⟩])] } } } (fun t => t.mem == full.mem &&
        only [.memc, .cnt] { full with dev := { full.dev with nic := { full.dev.nic with cqProd := [(3, 65)], held := [(3, [⟨0xABCD, none⟩])] } } } t),
      passes (lockRec 4) 3 (sLs []).dev, answers (.digest (lockRec 4)) (sLs []) (fun t => t.dev.ls.recv == [⟨0, 4, 0xFFF, 5, 6, 0, 0⟩]),
      answers (.digest (lockRec 0xFFFE)) (sLs []) (fun t => t.dev.ls == { (sLs []).dev.ls with state := 3, endCause := 3 }),
      answers .lsPartnerAbsent (sLs [⟨0, 0, 0, 0, 0, 0, 0⟩]) (fun t => t.dev.ls == { (sLs []).dev.ls with state := 4, endCause := 4 }), idle .lsPartnerAbsent sNic] = true := by decide +kernel

/-! ### Ports and the router -/

def ident1 : Ident := ⟨0x101, 1, 64, 7, 1, 15, 1, 9, 1, 4⟩
/-- Port 7 toward plane 1 of the rack, with 32 cells of room and a queue of cells that came on port 3. -/
def port0 (st : PState) : Port := { portDefault with st := st, lanes := 15, width := 4, ident := some ident1, cause := 3 }
def sPort (x : Port) (q : List Cell) : State := liveD (fun d => { d with
  ports := { d.ports with port := [(7, x)] }
  rtr := { d.rtr with outq := if q.isEmpty then [] else [(7, q.map (fun c => (3, c)))] } })
def cellX (n : BitVec 16) : Cell := { cellOf 1 63 [1] with seq := n }
def blockOf (i : Ident) : BitVec 512 := identBlock i
/-- The next unit, of one cell and 31 empty link slots, with a wrong check sum. -/
def unitBad : UnitIn := ⟨0, 0xFFFF, 0xFFFF, 0, .cell (cellX 1) :: List.replicate 31 (.link 0 0 0), [0, 0, 0, 0], [false, false, false, false]⟩
def sealUnit (u : UnitIn) : UnitIn := { u with crc := unitCrc u }
def unit1 : UnitIn := sealUnit unitBad
def inState (st : PState) (cause : Nat) (t : State) : Bool := (portGet t.dev 7).st == st && (portGet t.dev 7).cause == cause

/-- A unit with its check sum right is good where its slots and codewords are. -/
theorem sealed_good (u : UnitIn) (h : u.slots.length = 32) (g : u.uncorr.contains true = false) : unitGood (sealUnit u) = true := by
  have e : unitCrc (sealUnit u) = unitCrc u := rfl
  rw [unitGood, e, show (sealUnit u).slots = u.slots from rfl, show (sealUnit u).uncorr = u.uncorr from rfl,
    show (sealUnit u).crc = unitCrc u from rfl, h, g, beq_self_eq_true (unitCrc u)]
  rfl

theorem witness_UnitsAndLinkSlots_good : unitGood unit1 = true := sealed_good unitBad rfl rfl

theorem witness_UnitsAndLinkSlots :
    let act := sPort (port0 .active) [cellX 1, cellX 2]
    let x := port0 .active
    let ent25 := (List.range 25).map (fun i => (⟨BitVec.ofNat 16 i, [], 0, 0⟩ : RetryEnt))
    let nodes := { act with dev := { act.dev with rtr := { act.dev.rtr with table := [(0x101, 0x8000000000000000)] } } }
    all [portsRun act.dev 7, x.trigNow || decide (x.badUnits < objGet act.dev 0x440008), decide ((laneGet x 0).corr + 0 ≤ objGet act.dev 0x440007),
      unit1.useq == x.ack + 1, unit1.nak == unit1.ack, !(unitGood { unitBad with uncorr := [true] }),
      answers (.unitReceive 7 { unitBad with uncorr := [true, false, false, false] }) act (fun t => only [.ports, .cnt] act t && (portGet t.dev 7).nak == 0 &&
        (portGet t.dev 7).highest == 0 && grew (prtBase 7 + 0x110) act.dev t.dev),
      !(byCredit x), answers (.unitTransmit 7) act (fun t => only [.rtr, .cnt] act { t with dev := { t.dev with ports := act.dev.ports } } && (portGet t.dev 7).txSeq == 1 && (spGet [] t.dev.rtr.outq 7).isEmpty &&
        (portGet t.dev 7).retry.map (fun e => (e.useq, slotCells e.slots)) == [(0, [{ cellX 1 with hops := 59 }, { cellX 2 with hops := 59 }])] && grew (prtBase 7 + 0x100) act.dev t.dev),
      answers (.unitTransmit 7) (sPort { x with retry := ent25, txSeq := 25 } []) (fun t => (portGet t.dev 7).txSeq == 25 && (portGet t.dev 7).retry.length == 25 &&
        grew (prtBase 7 + 0x128) act.dev t.dev),
      answers (.unitTransmit 7) (sPort { x with retry := ent25, txSeq := 25, replayReq := some 24 } []) (fun t => (portGet t.dev 7).replayReq == none &&
        (((portGet t.dev 7).retry[24]?).map (·.reps)) == some 1 && grew (prtBase 7 + 0x128) act.dev t.dev),
      (let q := { act with dev := { act.dev with rtr := { act.dev.rtr with outq := [(7, [(ownInput, { cellX 1 with op := 0x3F, payload := payloadOf (List.replicate 8 0 ++ [6]) })])] } } }
       answers (.unitTransmit 7) q (fun t => (tpGet t.dev 1).reqs.map (·.1) == [6] && (portGet t.dev 7).retry.length == 1)),
      identOf (blockOf ident1) == some ident1, identOf (blockOf ident1 ||| (1 : BitVec 512) <<< 511) == none, identValid ident1, !(identValid { ident1 with kind := 4 }),
      idle (.ident 7 (blockOf { ident1 with kind := 4 })) act,
      answers (.ident 7 (blockOf ident1 ||| (1 : BitVec 512) <<< 511)) act (fun t => only [.cnt] act t && grows [prtBase 7 + 0x148] act.dev t.dev),
      answers (.ident 7 (blockOf { ident1 with incarnation := 10 })) act (fun t => portGet t.dev 7 == { x with ident := some { ident1 with incarnation := 10 } }),
      let idn := { (sPort { port0 .identify with ident := none } []) with dev := { (sPort { port0 .identify with ident := none } []).dev with
        health := { act.dev.health with state := .start } } }
      !(isAdmitted idn.dev) && answers (.ident 7 (blockOf ident1)) idn (fun t => only portParts idn t && inState .admitWait 3 t && (portGet t.dev 7).width == 4) &&
        answers (.ident 7 (blockOf { ident1 with plane := 2 })) idn (fun t => inState .held 4 t) &&
        answers (.ident 7 (blockOf { ident1 with modes := 0 })) idn (fun t => inState .held 6 t),
      answers (.credit 7 256) act (fun t => portGet t.dev 7 == { x with credit := 256 }),
      [(0 : BitVec 16), 257].all (fun n => answers (.credit 7 n) act (fun t => only [.cnt] act t && grows [prtBase 7 + 0x148] act.dev t.dev)),
      answers (.retrainReq 7 1) act (fun t => only portParts act t && inState .drain 0xC t && t.dev.rtr.back == [(3, cellX 1), (3, cellX 2)] &&
        grew (prtBase 7 + 0x138) act.dev t.dev), idle (.retrainReq 7 1) (sPort (port0 .drain) []),
      answers (.depart 7 (cellX 1)) nodes (fun t => only portParts nodes t && inState .detect 0xD t && t.dev.rtr.removed.contains 7 &&
        (routeEntry t.dev 0x101).getLsbD 62 && grew (rtrBase + 0x30) nodes.dev t.dev),
      answers (.depart 7 { cellX 1 with src := 0x102 }) nodes (fun t => only [.cnt] nodes t && grows [rtrBase + 0x38, rtrBase + 0x1700] nodes.dev t.dev)] = true := by decide +kernel

def sRoute (c : Cell) : State := { sPort (port0 .active) [] with dev := { (sPort (port0 .active) []).dev with rtr := { Router.reset with
  node := 0xFF, staging := [(3, [c])], table := [(0xFF, 0x8000000000000000), (0x101, BitVec.ofNat 64 (2 ^ 63 + 7 * 2 ^ 57))] } } }
def far : Cell := { cellX 1 with dst := 0x101, src := 0x100, hops := 1 }

theorem witness_CellRouteDelivers :
    let s := sRoute (cellX 1)
    let f := sRoute far
    all [portsRun s.dev 16, fateOf s.dev 3 (cellX 1) == .route, opKnown 1,
      answers .cellRoute s (fun t => t.dev.rtr.toNic == [cellX 1] && (spGet [] t.dev.rtr.staging 3).isEmpty && t.dev.rtr.cycle == 1 && only [.rtr, .ports, .cnt] s t),
      fateOf f.dev 3 far == .route, decide (0 < portSlots f.dev 7), fieldN (routeEntry f.dev 0x101) 61 57 == 7,
      answers .cellRoute f (fun t => t.dev.rtr.outq == [(7, [(3, far)])] && t.dev.rtr.toNic.isEmpty && only [.rtr, .ports, .cnt] f t)] = true := by decide +kernel

def tf (m : W32) : TrainFrame := ⟨m, 0, 3, 0, 5, false, true⟩
def withLane (st : PState) (l : List (Nat × Lane)) : State := sPort { port0 st with lanes := 0, laneState := l } []
/-- A lane whose first tap stands at 4. -/
def tapped : Lane := { laneDefault with pre2 := 4 }
def rdy (a b c : Bool) : Lane := { laneDefault with rxReady := a, ready := b, locked := c }

theorem witness_PortTraining : all [
  answers (.trainingFrame 7 3 (tf 0x7E61B3C8)) (withLane .equalize [(3, tapped)]) (fun t => laneGet (portGet t.dev 7) 3 == { laneDefault with rxReady := true, pre2 := 4 } &&
    only [.ports] (withLane .equalize [(3, tapped)]) t),
  answers (.trainingFrame 7 0 { tf 0x7E61B3C8 with presetValid := true, pre1 := 1 }) (withLane .retrain [(0, tapped)]) (fun t => laneGet (portGet t.dev 7) 0 ==
    { laneDefault with rxReady := true, preset := 5, pre2St := 1, pre1St := 1, post1St := 1 }),
  laneGet (portGet (withLane .equalize [(3, tapped)]).dev 7) 3 == tapped, idle (.trainingFrame 7 3 (tf 0)) (withLane .equalize []), idle (.trainingFrame 7 3 (tf 0x7E61B3C8)) (withLane .align []),
  usable (withLane .detect []).dev 7 == 15,
  answers (.portSignalDetect 7 3) (withLane .detect [(0, rdy true true true)]) (fun t => only portParts (withLane .detect [(0, rdy true true true)]) t && inState .equalize 3 t &&
    !(laneGet (portGet t.dev 7) 0).ready),
  idle (.portSignalDetect 7 4) (withLane .detect []), idle (.portSignalDetect 7 15) (withLane .align []),
  answers (.laneReady 7 3) (withLane .equalize [(3, rdy true false false)]) (fun t => (laneGet (portGet t.dev 7) 3).ready && inState .equalize 3 t),
  answers (.laneReady 7 3) (withLane .equalize [(0, rdy true true false), (1, rdy true true false), (2, rdy true true false), (3, rdy true false false)]) (fun t =>
    inState .align 3 t && (portGet t.dev 7).lanes == 15),
  idle (.laneReady 7 3) (withLane .equalize []), idle (.laneReady 7 3) (withLane .align [(3, rdy true false false)]),
  answers (.laneLock 7 3) (withLane .retrain []) (fun t => (laneGet (portGet t.dev 7) 3).locked && inState .retrain 3 t),
  answers (.laneLock 7 3) (withLane .retrain [(0, rdy true true true), (1, rdy true true true), (2, rdy true true true)]) (fun t => inState .align 3 t && (portGet t.dev 7).lanes == 15),
  idle (.laneLock 7 3) (withLane .active []),
  answers (.equalizeTimeout 7) (withLane .equalize [(0, rdy true true false), (3, rdy true true false)]) (fun t => inState .align 3 t && (portGet t.dev 7).lanes == 9),
  answers (.equalizeTimeout 7) (withLane .equalize [(3, rdy true true false)]) (fun t => inState .detect 2 t),
  answers (.alignTimeout 7) (withLane .align []) (fun t => inState .detect 3 t), answers (.identifyTimeout 7) (withLane .identify []) (fun t => inState .detect 3 t),
  answers (.retrainTimeout 7) (withLane .retrain []) (fun t => inState .detect 3 t),
  [Instr.equalizeTimeout 7, .alignTimeout 7, .identifyTimeout 7, .retrainTimeout 7].all (fun i => idle i (withLane .active []))] = true := by decide +kernel

theorem witness_PortExits :
    let kept : RetryEnt := ⟨0, [.cell (cellX 5), .link 1 0 0], 0, 0⟩
    let x := { port0 .active with retry := List.replicate 25 kept, retryRun := 4, laneState := [(3, { laneDefault with fecRun := 4 })] }
    let s := sPort x [cellX 1]
    let gone (i : Instr) (st : PState) (cause : Nat) := answers i s (fun t => only portParts s t && inState st cause t && (spGet [] t.dev.rtr.outq 7).isEmpty &&
      t.dev.rtr.back == [(3, cellX 1)] && grew (prtBase 7 + 0x138) s.dev t.dev &&
      (st != .retrain || ((portGet t.dev 7).retry.isEmpty && cntGet t.dev (prtBase 7 + 0x140) == grown (cntGet s.dev (prtBase 7 + 0x140)) 25)))
    let pair (a b : Port) := liveD (fun d => { d with ports := { d.ports with port := [(6, a), (7, b)] } })
    all [portsRun s.dev 7, lanesFresh x, unacked x == 25, gone (.laneLoss 7 8) .retrain 7, gone (.fecLimit 7 3) .drain 8, gone (.retryLimit 7) .drain 9,
      gone (.ackTimeout 7) .retrain 0xB, gone (.freqMismatch 7) .retrain 0x10,
      idle (.freqMismatch 7) (sPort { x with ident := some { ident1 with kind := 2 } } [cellX 1]),
      [Instr.fecLimit 7 3, .retryLimit 7, .ackTimeout 7, .freqMismatch 7, .drainEnd 7].all (fun i => idle i (sPort { x with st := .align } [])),
      answers (.drainEnd 7) (sPort { x with st := .drain } []) (fun t => inState .retrain 3 t && cntGet t.dev (prtBase 7 + 0x140) == 25),
      answers (.drainEnd 7) (withObj 0x440001 0 (sPort { x with st := .drain } [])) (fun t => inState .disabled 3 t),
      let c := pair { portDefault with st := .active } { port0 .active with mirror := [(5, cellX 9)], mirrorAck := 4 }
      expEligible c.dev 7 && answers (.expClaim 7) c (fun t => only [.ports, .kmd, .hif, .cnt, .rtr] c t && (portGet t.dev 7).owner && !(portGet t.dev 6).owner &&
        t.dev.rtr.outq == [(7, [(ownInput, { cellX 9 with replay := true })])] && grew (prtBase 7 + 0x158) c.dev t.dev),
      idle (.expClaim 7) (pair { portDefault with owner := true } (port0 .active)),
      let h := pair (port0 .active) { port0 .active with owner := true }
      expPrimary h.dev 6 == 6 && expEligible h.dev 6 && answers (.expHoldoffExpiry 6) h (fun t => only [.ports, .kmd, .hif, .cnt, .rtr] h t && (portGet t.dev 6).owner &&
        !(portGet t.dev 7).owner && grew (prtBase 6 + 0x160) h.dev t.dev),
      idle (.expHoldoffExpiry 6) (pair (port0 .drain) { port0 .active with owner := true })] = true := by decide +kernel

/-! ### Supply, limiters, cooling -/

/-- A live module with its rails on, its loop wet with coolant that flows, dry outside, and seated. -/
def sPow : State := liveD (fun d => { d with
  pwr := { d.pwr with
    supply := { Supply.reset with inputMv := 50000, okUs := 100000, enMem := true, enMain := true, memRails := .on, mainRails := .on }
    cool := { Cool.reset with flowGood := true, leakReading := 0, flowRun := 1000 } }
  rst := { d.rst with seated := true, prsntLow := true } })
def supD (g : Supply → Supply) : State := { sPow with dev := { sPow.dev with pwr := { sPow.dev.pwr with supply := g sPow.dev.pwr.supply } } }
def coolD (g : Cool → Cool) : State := { sPow with dev := { sPow.dev with pwr := { sPow.dev.pwr with cool := g sPow.dev.pwr.cool } } }
def limD (g : Limits → Limits) : State := { sPow with dev := { sPow.dev with pwr := { sPow.dev.pwr with lim := g sPow.dev.pwr.lim } } }
def galD (g : Nat) (f : Gal → Gal) (s : State) : State := { s with dev := galMod g f s.dev }
def sup (t : State) : Supply := t.dev.pwr.supply
/-- The same with port 7 ACTIVE. -/
def active (s : State) : State := { s with dev := { s.dev with ports := { s.dev.ports with port := [(7, port0 .active)] } } }
/-- The same stopped, and the same in a Withdraw that ends in a main-rail stop. -/
def stopped (s : State) : State := { s with dev := { s.dev with health := { s.dev.health with state := .off } } }
def withdrawn (w : AfterWithdraw) (s : State) : State := { s with dev := { s.dev with rst := { s.dev.rst with withdraw := some w } } }
def isOff (t : State) : Bool := t.dev.health.state == .off

theorem witness_SupplyAndRails :
    let off := supD (fun u => { u with memRails := .off, mainRails := .off })
    let rise := supD (fun u => { u with memRails := .rising, mainRails := .off })
    let rise2 := supD (fun u => { u with mainRails := .rising })
    let memOn := { supD (fun u => { u with mainRails := .off }) with dev := { (supD (fun u => { u with mainRails := .off })).dev with tim := { sPow.dev.tim with now := 10 ^ 6 } } }
    let early := supD (fun u => { u with mainRails := .off, enMainEarly := true })
    all [sPow.dev.jtag.ir != 0, answers (.inputSample 59500 1000) off (fun t => only [.pwr] off t && (sup t).memRails == .rising && (sup t).okUs == 1000),
      answers (.inputSample 59501 1000) off (fun t => (sup t).memRails == .off && (sup t).okUs == 0),
      railsOn sPow.dev, answers (.inputMarginal true) (supD (fun u => { u with inputMv := 39999 })) (fun t => (sup t).marginal && grew (pwrBase + 0x370) sPow.dev t.dev),
      answers (.inputMarginal false) (supD (fun u => { u with marginal := true })) (fun t => !(sup t).marginal),
      idle (.inputMarginal true) sPow, idle (.inputMarginal false) (supD (fun u => { u with inputMv := 59501 })),
      answers .supplyFault (supD (fun u => { u with inputMv := 37999 })) (fun t => only [.pwr, .rst, .health, .kmd, .cnt] (supD (fun u => { u with inputMv := 37999 })) t &&
        isOff t && (sup t).mainRails == .off && (sup t).pwrOffReq && t.dev.rst.step == 1 && t.dev.rst.cause.getLsbD 10),
      idle .supplyFault (supD (fun u => { u with inputMv := 38000 })), idle (.enMem false 9) sPow, idle (.enMain true 9) off,
      answers (.enMem true 10) (supD (fun u => { u with memRails := .off, mainRails := .off, enMem := false })) (fun t => (sup t).enMem && (sup t).memRails == .rising),
      memSettled memOn.dev, mainAllowed memOn.dev, answers (.enMain true 10) memOn (fun t => (sup t).mainRails == .rising),
      answers (.enMem false 10) rise (fun t => only [.pwr, .rst, .pins] rise t && (sup t).memRails == .off && t.dev.rst.step == 1 && t.dev.rst.held),
      answers (.enMain false 10) rise2 (fun t => only [.pwr, .rst, .pins] rise2 t && (sup t).mainRails == .off && (sup t).memRails == .on),
      moduleRuns sPow.dev, !(moduleRuns (stopped sPow).dev),
      [Instr.enMem false 10, .enMain false 10].all (fun i =>
        [sPow, active sPow].all (fun s => answers i s (fun t => t.dev.rst.withdraw == some .railsOff && t.dev.nic.stopped && (sup t).mainRails == .on)) &&
        answers i (withdrawn .sysReset sPow) (fun t => t.dev.rst.withdraw == some .railsOff && (sup t).mainRails == .on && only [.pwr, .rst] (withdrawn .sysReset sPow) t) &&
        answers i (withdrawn .leakStop sPow) (fun t => t.dev.rst.withdraw == some .leakStop) &&
        answers i (stopped sPow) (fun t => only [.pwr, .rst, .pins] (stopped sPow) t && (sup t).mainRails == .off && t.dev.rst.step == 1)),
      answers .enMainActedOn early (fun t => !(sup t).enMainEarly && (sup t).mainRails == .rising), idle .enMainActedOn sPow,
      answers (.railRegulated false) rise (fun t => sup t == { sup rise with memRails := .on }), answers (.railTimeout 1) rise (fun t => (sup t).stopRail == 1 && (sup t).enRearm),
      answers (.railRegulated true) rise2 (fun t => (sup t).mainRails == .on), answers (.railTimeout 2) rise2 (fun t => (sup t).stopRail == 2 && (sup t).memRails == .off),
      [Instr.railRegulated false, .railRegulated true, .railTimeout 1, .railTimeout 2].all (fun i => idle i sPow)] = true := by decide +kernel

def limIn : LimitIn := { drawW := 100, windowW := 100, railW := 100, railE := 100, stepsDown := 1, dutyW := 16, dutyE := 16, lastW := 100, energy := 0, ballastW := 0, capacityW := 0, railRoomW := 0 }
def lim (t : State) : Limits := t.dev.pwr.lim

theorem witness_LimitersAndClocks :
    let hot := galD 11 (fun g => { g with tj := [(0, some 950)], own := 60, clk := 60 }) sPow
    let brk := limD (fun l => { l with brake := true })
    let m : Meter := { meanW := 700, overhead := 1, ballast := 1, slots := List.replicate 32 2 }
    all [hubUp sPow.dev, clearBelow sPow.dev.pwr.lim limIn,
      answers (.limiterInterval limIn) (limD (fun l => { l with ceiling := 16, duty := 15 })) (fun t => (lim t).ceiling == 16 && (lim t).duty == 16),
      answers (.limiterInterval limIn) (limD (fun l => { l with ceiling := 60 })) (fun t => (lim t).ceiling == 61),
      decide (30 * sPow.dev.pwr.lim.limit < draw100 sPow.dev.pwr.lim { limIn with drawW := 90000 }), answers (.limiterInterval { limIn with drawW := 90000 }) sPow (fun t => (lim t).pplBound && (lim t).boundNow && (lim t).ceiling == 59),
      answers (.limiterInterval { limIn with drawW := 90000 }) (limD (fun l => { l with ceiling := 16, duty := 16 })) (fun t => (lim t).duty == 15),
      answers (.limiterInterval { limIn with railW := 100000, dutyW := 9 }) sPow (fun t => (lim t).dutyW == 9 && (lim t).dutyE == 16 && (lim t).railBoundW && !(lim t).railBoundE),
      answers (.limiterInterval limIn) (limD (fun l => { l with dutyE := 15 })) (fun t => (lim t).dutyE == 16 && !(lim t).railBoundE && (lim t).recent == [100]),
      (let s := limD (fun l => { l with lo := 600 })
       let i := { limIn with capacityW := 1000, railRoomW := 1000 }
       clearBelow s.dev.pwr.lim i && answers (.limiterInterval i) s (fun t => (lim t).ballast == 32) &&
         answers (.limiterInterval i) (limD (fun l => { l with lo := 600, dutyW := 14 })) (fun t => (lim t).ballast == 0) &&
         answers (.limiterInterval { i with windowW := 2000000 }) (limD (fun l => { l with lo := 600, ballast := 8, ceiling := 50 })) (fun t =>
           (lim t).ballast == 0 && (lim t).ceiling == 50 && (lim t).pplBound)),
      answers (.railVoltageReached 1) sPow (fun t => only [.pwr] sPow t && (galGet t.dev 11).clk == clockWant sPow.dev (galGet sPow.dev 11)),
      answers (.droop 11 70) sPow (fun t => (galGet t.dev 11).stretch == 3), answers (.droop 11 24) sPow (fun t => (galGet t.dev 11).stretch == 0),
      galHot (galGet hot.dev 11) == some 950, !(ffOn hot.dev), answers (.selfThrottleStep 11) hot (fun t => (galGet t.dev 11).own == 59 && grew (galBase 11 + 0x220) hot.dev t.dev),
      idle (.selfThrottleStep 11) (galD 11 (fun g => { g with tj := [(0, some 931)] }) sPow),
      answers (.powerWindowBoundary m) sPow (fun t => (lim t).drawW == 700 && t.dev.tim.count.toNat % 2 ^ 20 == 0 && (lim t).limit == (settingsNow sPow.dev).pplW &&
        t.dev.pwr.total == 65 && only [.pwr, .tim, .ports, .kmd, .hif, .cnt] sPow t),
      answers (.droopRelease 11 7) (galD 11 (fun g => { g with stretch := 3, deepest := 3 }) sPow) (fun t => (galGet t.dev 11).stretch == 0 &&
        grew (galBase 11 + 0x210) sPow.dev t.dev && cntGet t.dev (galBase 11 + 0x218) == 7), idle (.droopRelease 11 7) sPow,
      answers (.pwrBrakeN false 1000) sPow (fun t => (lim t).brake && grew (pwrBase + 0x330) sPow.dev t.dev && only [.pwr, .kmd, .hif, .cnt] sPow t),
      answers (.pwrBrakeN true 1000) brk (fun t => !(lim t).brake && !(sup t).brakePin), idle (.pwrBrakeN false 999) sPow, idle (.pwrBrakeN false 1000) brk,
      hifUp sPow.dev, isLive sPow.dev, !(ffConflict (schedAdd ⟨0, .cap 450⟩ sPow.dev)), !(ffConflict (schedAdd ⟨0, .ff 800⟩ sPow.dev)),
      answers (.pwrCap 450) sPow (fun t => only [.tim] sPow t && t.dev.tim.sched == [⟨0, .cap 450⟩]), answers (.pwrCap 3000) sPow (fun t => t.dev.tim.sched == [⟨0, .cap 3000⟩]),
      [(449 : W32), 3001].all (fun v => answers (.pwrCap v) sPow (fun t => only [.hif] sPow t && t.dev.hif.err.getLsbD 0)),
      answers (.pwrFf 800) sPow (fun t => t.dev.tim.sched == [⟨0, .ff 800⟩]), [(799 : W32), 810, 1425].all (fun v => answers (.pwrFf v) sPow (fun t => t.dev.hif.err.getLsbD 0)),
      (let mt := { sPow with dev := { sPow.dev with health := { sPow.dev.health with state := .recovery } } }
       !(hifUp mt.dev) && idle (.pwrCap 450) mt && idle (.pwrFf 0) mt),
      (let ff := limD (fun l => { l with eff := { l.eff with ffMhz := 800, pplW := 2400 } })
       let low := { ff with dev := { ff.dev with tim := { ff.dev.tim with sched := [⟨0, .ff 800⟩] } } }
       ffConflict (schedAdd ⟨0, .cap 450⟩ low.dev) && answers (.pwrCap 450) low (fun t => only [.hif] low t && t.dev.hif.err.getLsbD 1)),
      (let low := { sPow with dev := { sPow.dev with tim := { sPow.dev.tim with sched := [⟨0, .cap 450⟩] } } }
       ffConflict (schedAdd ⟨0, .ff 800⟩ low.dev) && answers (.pwrFf 800) low (fun t => only [.hif] low t && t.dev.hif.err.getLsbD 1))] = true := by decide +kernel

def cool (t : State) : Cool := t.dev.pwr.cool

theorem witness_CoolingChecks :
    let off := supD (fun u => { u with mainRails := .off, memRails := .off })
    let watch (s t : State) := only [.pwr, .memc, .kmd, .hif, .health, .cnt] s t
    let wet := coolD (fun c => { c with wetRun := 10 })
    let ext := { sPow with dev := { sPow.dev with jtag := { Jtag.reset with ir := 0 } } }
    let dark := { sPow with dev := { sPow.dev with rst := { sPow.dev.rst with aon := false } } }
    all [idle (.flowPulseEdge 600) ext, idle .flowRestored ext, idle (.coolantSample (some 300) (some 300)) dark, sPow.dev.rst.aon, sensorPowered sPow.dev 47, sensorPowered sPow.dev 87, answers (.junctionSample 47 (some 1099)) sPow (fun t => watch sPow t && spGet none (galGet t.dev 11).tj 3 == some 1099),
      answers (.junctionSample 87 none) sPow (fun t => watch sPow t),
      answers (.junctionSample 47 (some 1100)) sPow (fun t => isOff t && (sup t).tripLatched && (sup t).pwrOffReq && t.dev.rst.cause.getLsbD 7),
      idle (.junctionSample 87 (some 5)) off, idle (.junctionSample 88 (some 5)) sPow,
      answers (.coolantSample (some 801) (some 300)) sPow (fun t => watch sPow t && (cool t).failing.contains 3 && (cool t).sensingDegraded),
      answers (.coolantSample (some 800) (some 0)) sPow (fun t => !(cool t).failing.contains 3),
      answers (.coolantHot true) (coolD (fun c => { c with inletDc := some 451 })) (fun t => (cool t).coolantHot), idle (.coolantHot true) (coolD (fun c => { c with inletDc := some 450 })),
      answers (.coolantHot false) (coolD (fun c => { c with inletDc := some 440, coolantHot := true })) (fun t => !(cool t).coolantHot),
      idle (.coolantHot false) (coolD (fun c => { c with inletDc := some 441, coolantHot := true })),
      answers (.flowPulseEdge 600) sPow (fun t => (cool t).flowRun == 1001), answers (.flowPulseEdge 601) sPow (fun t => (cool t).flowRun == 0 && !(cool t).flowGood),
      answers .flowLost (stopped sPow) (fun t => isOff t && (cool t).flowStopped && grew (pwrBase + 0x360) sPow.dev t.dev && t.dev.rst.cause.getLsbD 8 && (sup t).stopCause == 1),
      [sPow, active sPow].all (fun s => answers .flowLost s (fun t => t.dev.rst.withdraw == some .flowStop && t.dev.nic.stopped && grew (pwrBase + 0x360) sPow.dev t.dev && t.dev.rst.cause.getLsbD 8 && t.mem == s.mem)),
      [(AfterWithdraw.sysReset, AfterWithdraw.flowStop), (.railsOff, .flowStop), (.leakStop, .leakStop)].all (fun e => answers .flowLost (withdrawn e.1 sPow) (fun t => t.dev.rst.withdraw == some e.2 && (cool t).flowStopped)),
      answers .flowLost off (fun t => only [.pwr] off t && !(cool t).flowGood), idle .flowRestored (coolD (fun c => { c with flowRun := 0 })),
      answers .flowRestored (coolD (fun c => { c with flowGood := false })) (fun t => (cool t).flowGood),
      answers .flowRestored (coolD (fun c => { c with flowStopped := true })) (fun t => !(cool t).flowStopped && grew (rstBase + 0x210) sPow.dev t.dev && t.dev.lnd.isEmpty),
      answers (.leakSample 900) sPow (fun t => (cool t).dryRun == 1 && (cool t).leakReading == 0), answers (.leakSample 799) sPow (fun t => (cool t).wetRun == 1),
      answers (.leakSample 800) sPow (fun t => (cool t).faultRun == 1 && only [.pwr, .kmd, .cnt] sPow t),
      answers .leakWet (stopped wet) (fun t => isOff t && (cool t).leakLatched && (sup t).stopCause == 2 && (sup t).pwrOffReq),
      [wet, active wet, withdrawn .flowStop wet].all (fun s => answers .leakWet s (fun t => t.dev.rst.withdraw == some .leakStop && (cool t).leakLatched)), idle .leakWet (coolD (fun c => { c with wetRun := 9 })),
      answers .leakLoopFault (coolD (fun c => { c with faultRun := 100 })) (fun t => (cool t).leakFault && (cool t).sensingDegraded && grew (pwrBase + 0x368) sPow.dev t.dev),
      idle .leakLoopFault (coolD (fun c => { c with faultRun := 99 })),
      answers .leakDry (coolD (fun c => { c with dryRun := 100, leakFault := true })) (fun t => !(cool t).leakFault), idle .leakDry sPow,
      answers (.heatBalanceCheck 500 300 310) (coolD (fun c => { c with flowWritten := some 0, balanceRun := 9 })) (fun t => (cool t).balanceRun == 10 && (cool t).failing.contains 4 &&
        (cool t).sensingDegraded), answers (.heatBalanceCheck 499 300 310) sPow (fun t => (cool t).balanceSuspended),
      answers (.junctionStaticCheck 11 19) sPow (fun t => (galGet t.dev 11).sensorFault && (cool t).failing.contains 2),
      answers (.junctionStaticCheck 11 20) sPow (fun t => watch sPow t && !(cool t).failing.contains 2 && !(galGet t.dev 11).sensorFault)] = true := by decide +kernel

/-! ### Power-on, start, scrub -/

def rstD (g : Rst → Rst) : State := { sPow with dev := { sPow.dev with rst := g sPow.dev.rst } }
def stateD (x : MState) (s : State) : State := { s with dev := { s.dev with health := { s.dev.health with state := x } } }
/-- Rails up, power-on reset still held. -/
def sHeld : State := stateD .off (rstD (fun r => { r with held := true, step := 0, refLocked := false }))
def begun (s t : State) : Bool :=
  t.dev.health.state == .start && t.dev.rst.phase == 0 && !t.dev.rst.held && t.dev.rst.step == 10 && t.dev.rst.incarnation == s.dev.rst.incarnation + 1 &&
    grew (rstBase + 0x200) s.dev t.dev
def hostReset (s t : State) : Bool := only [.mem, .memc, .rst, .hif, .regs, .cnt] s t && t.dev.hif.rings.isEmpty && !t.dev.hif.linkUp && grew (rstBase + 0x228) s.dev t.dev

theorem witness_PowerOnAndPins :
    let off := stateD .off (rstD (fun r => { r with held := true, step := 1 }))
    let wait4 := rstD (fun r => { r with hold := 4, step := 2 })
    let latched := { off with dev := { off.dev with pins := { off.dev.pins with latched := true } } }
    let gone := rstD (fun r => { r with removed := true, seated := false })
    let rails := supD (fun u => { u with mainRails := .off })
    let wd (w : AfterWithdraw) (s : State) := { s with dev := { s.dev with rst := { s.dev.rst with withdraw := some w } } }
    all [sPow.dev.jtag.ir != 0,
      answers .powerOnReset { sPow with mem := mem0 } (fun t => t.mem == Memory.reset && t.dev.lnd.isEmpty && isOff t && t.dev.rst.held && t.dev.rst.cause == 1 && t.dev.rst.incarnation == 1),
      answers .aonSupplyLoss sPow (fun t => only [.rst, .pwr, .health, .kmd] sPow t && !t.dev.rst.aon && isOff t && t.dev.rst.cause == 0),
      idle (.porRelease true) sPow, answers (.porRelease true) sHeld (fun t => begun sHeld t && t.dev.pins.latched && t.dev.rtr.node == 255 && t.dev.kmd.mac == 0x024B34003F04),
      answers (.porRelease false) sHeld (fun t => isOff t && t.dev.rst.step == 2 && t.dev.rst.hold == 4 && !t.dev.rst.held),
      answers (.porRelease true) { sHeld with dev := { sHeld.dev with rst := { sHeld.dev.rst with sysPinLow := true } } } (fun t => isOff t && t.dev.rst.held && t.dev.rst.step == 1),
      answers (.refclkLockRetry true) wait4 (fun t => begun wait4 t && t.dev.rst.refLocked), idle (.refclkLockRetry false) wait4, idle (.refclkLockRetry true) sPow,
      answers .refclkLoss sPow (fun t => t.dev.rst == { sPow.dev.rst with refLost := true }), answers .refclkRestored sPow (fun t => t.dev.rst == sPow.dev.rst),
      idle .refclkLoss sHeld, idle .refclkRestored sHeld,
      answers (.sysRstN true 0) (rstD (fun r => { r with sysPinLow := true })) (fun t => t.dev.rst == sPow.dev.rst),
      answers (.sysRstN true 0) latched (fun t => begun latched t && t.mem == latched.mem), idle (.sysRstN false 999) sPow,
      answers (.sysRstN false 1000) wait4 (fun t => only [.rst] wait4 t && t.dev.rst.sysPinLow && t.dev.rst.held && t.dev.rst.step == 1 && t.dev.rst.hold == 0 && t.dev.rst.cause.getLsbD 1),
      answers (.sysRstN false 1000) sPow (fun t => t.dev.rst.sysPinLow && t.dev.rst.held && t.dev.rst.step == 1 && t.dev.rst.cause.getLsbD 1 && grew (rstBase + 0x210) sPow.dev t.dev),
      answers (.sysRstN false 1000) (active sPow) (fun t => t.dev.rst.withdraw == some .sysReset && t.dev.nic.stopped),
      answers (.perstN true 0) (rstD (fun r => { r with perstLow := true })) (fun t => t.dev.rst == sPow.dev.rst), idle (.perstN false 999) sPow,
      answers (.perstN false 1000) off (fun t => t.dev.rst == { off.dev.rst with perstLow := true }),
      answers (.perstN false 1000) (withObj 0x601001 1 sPow) (fun t => hostReset (withObj 0x601001 1 sPow) t && t.dev.rst.perstLow && t.dev.rst.cause.getLsbD 2),
      answers (.perstN false 1000) (withObj 0x601001 1 (stopped sPow)) (fun t => only [.rst] (withObj 0x601001 1 (stopped sPow)) t && t.dev.rst.perstLow && t.dev.rst.cause.getLsbD 2),
      answers (.perstN false 1000) (withObj 0x601001 0 sPow) (fun t => begun sPow t && t.dev.rst.perstLow && grew (rstBase + 0x210) sPow.dev t.dev),
      answers (.perstN false 1000) (withObj 0x601001 0 (active sPow)) (fun t => t.dev.rst.perstLow && t.dev.rst.withdraw == some .sysReset),
      answers .functionLevelReset sPow (fun t => hostReset sPow t && t.dev.rst == sPow.dev.rst), idle .functionLevelReset off,
      answers .prsntSeated (rstD (fun r => { r with seated := false, prsntLow := false })) (fun t => t.dev.rst == sPow.dev.rst),
      idle .prsntRelease (rstD (fun r => { r with seated := false })), answers .prsntRelease rails (fun t => only [.rst] rails t && !t.dev.rst.seated && !t.dev.rst.removed),
      answers .prsntRelease sPow (fun t => isOff t && t.dev.rst.removed && t.dev.health.removalMark && t.dev.nic.stopped), idle .prsntReturn sPow,
      answers .prsntReturn gone (fun t => begun gone t && !t.dev.rst.removed && t.dev.rst.cause.getLsbD 9), idle .withdrawEnd sPow,
      answers .withdrawEnd (wd .sysReset (active sPow)) (fun t => begun sPow t && t.dev.lnd.isEmpty && grew (rstBase + 0x210) sPow.dev t.dev && t.dev.rst.withdraw == none),
      answers .withdrawEnd (wd .outOfService sPow) (fun t => t.dev.health.state == .outOfService && t.dev.health.oosMark),
      answers .withdrawEnd (wd .railsOff (active sPow)) (fun t => isOff t && (sup t).mainRails == .off && t.dev.rst.step == 1 && (portGet t.dev 7).st == .disabled),
      answers .withdrawEnd (wd .flowStop (active sPow)) (fun t => isOff t && (sup t).stopCause == 1 && (portGet t.dev 7).st == .disabled),
      answers .withdrawEnd (wd .leakStop (active sPow)) (fun t => isOff t && (sup t).stopCause == 2 && (sup t).pwrOffReq)] = true := by decide +kernel

def sStart (n : Nat) : State := stateD .start (rstD (fun r => { r with phase := n }))
def phaseOk : PhaseIn := ⟨none, false, false, [103], [127], [11], [], []⟩
def failed (c : Nat) (s t : State) : Bool :=
  begun s t && t.dev.rst.failCause == c && t.dev.rst.failPhase == s.dev.rst.phase && t.dev.rst.failedStarts == 1 && grew (rstBase + 0x208) s.dev t.dev

/-- The clause of a start phase BOOT that finds an image has a witness only where the free verdict of the signature check is
true: it stands in the notes. -/
theorem witness_StartPhases :
    let at_ (n : Nat) (t : State) := t.dev.rst.phase == n && t.dev.rst.hold == 0 && t.dev.health.state == .start
    let busy := rstD (fun r => { r with coreBusy := true })
    let noStack := { (sStart 3) with dev := { (sStart 3).dev with fuses := { Fuses.reset with stackChanBad := BitVec.allOnes 128 } } }
    let dead := { (sStart 5) with dev := { (sStart 5).dev with health := { (sStart 5).dev.health with landState := [] } } }
    all [hubUp (sStart 0).dev, idle (.startPhaseDone phaseOk) (sStart 6), idle (.startPhaseDone phaseOk) sPow,
      [2, 3, 4, 6, 7, 8].all (fun c => answers (.startPhaseDone { phaseOk with fail := some c }) (sStart 5) (failed c (sStart 5))),
      answers (.startPhaseDone phaseOk) { (sStart 0) with dev := { (sStart 0).dev with health := { (sStart 0).dev.health with oosMark := true } } } (fun t => t.dev.health.state == .outOfService),
      !(bootRom false (sStart 0).dev).2, !(bootRom true (sStart 0).dev).2, answers (.startPhaseDone phaseOk) (sStart 0) (fun t => t.dev.health.state == .recovery && t.dev.rst.failCause == 5),
      fusesOk Fuses.reset, answers (.startPhaseDone phaseOk) (sStart 1) (fun t => at_ 2 t && landStateOf t.dev 8 == 1 && landStateOf t.dev 0 == 0),
      answers (.startPhaseDone phaseOk) { (sStart 1) with dev := { (sStart 1).dev with fuses := { Fuses.reset with galleryFull := 0 } } } (failed 3 (sStart 1)),
      answers (.startPhaseDone phaseOk) (sStart 2) (fun t => at_ 3 t && landStateOf t.dev 103 == 3 && landStateOf t.dev 0 == 0 && t.dev.memc.galHole.contains 11),
      answers (.startPhaseDone phaseOk) (sStart 3) (fun t => at_ 4 t && t.dev.memc.stackUp == 0xFF), answers (.startPhaseDone phaseOk) noStack (failed 8 (sStart 3)),
      answers (.startPhaseDone phaseOk) { (sStart 4) with mem := ⟨[(5, 1), (0x011000000000 - 1, 2), (0x011000000000, 3)], [], []⟩ } (fun t => at_ 5 t &&
        t.mem.bytes == [(0x011000000000, 3)] && t.dev.memc.stackUp == 0xFF),
      answers (.startPhaseDone phaseOk) (sStart 5) (fun t => t.dev.health.state == .start && t.dev.health.landingsEnabled == 103 && logicalOf t.dev 102 == 102),
      answers (.startPhaseDone phaseOk) dead (failed 9 (sStart 5)),
      answers .startTimeout (sStart 4) (failed 1 (sStart 4)), idle .startTimeout sPow, answers .hmpWatchdog (sStart 4) (failed 0xA (sStart 4)), idle .hmpWatchdog sHeld,
      answers .hmpWatchdog sPow (fun t => begun sPow t && t.dev.rst.cause.getLsbD 5), answers .hmpWatchdog (active sPow) (fun t => t.dev.rst.withdraw == some .sysReset),
      answers .hmpWatchdog (sStart 4) (fun t => t.dev.rst.cause.getLsbD 5), idle (.coreResetDone [3]) sPow, answers (.coreResetDone [3, 200]) busy (fun t => only [.rst, .health, .kmd, .cnt] busy t && !t.dev.rst.coreBusy && landStateOf t.dev 3 == 3 &&
        landStateOf t.dev 4 == 0)] = true := by decide +kernel

def scrub0 : Scrub := ⟨3, 0x1235, true, 0, 0, 0, 0, [(0x010000000000, 4096)]⟩
def scrubD (g : Health → Health) (s : State) : State := { s with dev := { s.dev with health := g s.dev.health } }

/-- The page of the fill is retired, so it stays. -/
theorem witness_ScrubAndZeroFill :
    let run := ringOf { ringDefault with cfg := 0x80000004, run := some (runOf 0) } sNic
    let busy := scrubD (fun h => { h with scrub := some { scrub0 with slot := 31 } }) run
    let fill := scrubD (fun h => { h with fills := [scrub0], report := { ScrubReport.none with ctx := 0x1235, result := 2 } }) { sNic with
      mem := ⟨[(mz, 1)], [], []⟩, dev := { sNic.dev with memc := { sNic.dev.memc with retired := [mz] } } }
    all [hifUp sNic.dev, isAdmitted sNic.dev, ctxValid sNic.dev 3, answers (.hifCtxScrub 3) sNic (fun t => t.dev.hif.scrubBusy && t.mem == sNic.mem &&
        (t.dev.health.scrub.map (fun c => (c.slot, c.ctx))) == some (3, 0x1235) && grew (rstBase + 0x220) sNic.dev t.dev),
      answers (.hifCtxScrub 4) sNic (fun t => only [.hif] sNic t && t.dev.hif.err.getLsbD 1), idle .scrubComplete sNic,
      answers .scrubComplete busy (fun t => t.dev.health.scrub.isNone && !(ctxValid t.dev 31) && (ringGet t.dev 31 7).run.isNone && !(ringGet t.dev 31 7).cfg.getLsbD 31 &&
        t.dev.health.report.ctx == 0x1235 && t.dev.health.report.result == 2), idle .zeroFillDone sNic,
      answers .zeroFillDone fill (fun t => only [.mem, .memc, .health, .cnt] fill t && t.mem.bytes == [(mz, 1)] && t.dev.health.fills.isEmpty &&
        t.dev.health.report.result == 3 && t.dev.health.report.zeroBytes == 0)] = true := by decide +kernel

/-! ### The management link

The tag of a frame is too long a computation for a test: that a frame with the right tag is authentic is proved for every frame,
and the conditions besides it are computed. -/

def mgKey : List Byte := [1, 2, 3]
/-- A frame from the controller with counter `ctr`, its tag blank. -/
def mk (d : Dev) (mtype : BitVec 8) (ctr : W64) (body : List Byte) : Frame :=
  ⟨d.kmd.mac, 0x020000000001, 0x88B5, 1, mtype, 0, 0, d.rst.incarnation, ctr, 9, BitVec.ofNat 16 body.length, 0, body, 0, 0⟩
def signed (f : Frame) (d : Dev) : Frame :=
  { f with tag := BitVec.ofNat 128 (leNat ((hmacSha256 (spGet [] d.kmd.keys f.keyId.toNat) (frameBytes f)).take 16)) }

theorem leNat_lt (l : List Byte) : leNat l < 256 ^ l.length := by
  induction l with
  | nil => simp [leNat]
  | cons b t ih => have := b.isLt; simp only [leNat, List.length_cons, Nat.pow_succ]; omega

theorem leBytes_leNat (l : List Byte) : leBytes l.length (leNat l) = l := by
  induction l with
  | nil => rfl
  | cons b t ih =>
    have h := b.isLt
    have e : (b.toNat + 256 * leNat t) / 256 = leNat t := by omega
    have g : BitVec.ofNat 8 (b.toNat + 256 * leNat t) = b := by
      apply BitVec.eq_of_toNat_eq; rw [BitVec.toNat_ofNat]; omega
    simp only [leNat, List.length_cons, leBytes, e, g, ih]

/-- Every condition for a frame to be authentic, and to be heard, but its tag. -/
def authBut (f : Frame) (d : Dev) : Bool :=
  !((spGet [] d.kmd.keys f.keyId.toNat).isEmpty) && f.incarnation == d.rst.incarnation && decide (d.kmd.lastCtr.toNat < f.counter.toNat)
def heardBut (f : Frame) (d : Dev) : Bool :=
  kmdHears d && frameMine f d && frameOk f && authBut f d && decide (f.queued < 8) && (keptAnswer f d).isNone && !(bootRefuses f d)
def takes (key : Nat) (f : Frame) (d : Dev) : Bool :=
  heardBut f d && f.mtype == 2 && frameKey f == key && writeAbort (writeReq f) d == (0, 0)

theorem shaRound_length {w : Nat} (p : ShaParam) (v : List (BitVec w)) (kw : BitVec w × BitVec w) : (shaRound p v kw).length = v.length := by
  unfold shaRound; split <;> rfl

theorem shaRounds_length {w : Nat} (p : ShaParam) (l : List (BitVec w × BitVec w)) (v : List (BitVec w)) :
    (l.foldl (shaRound p) v).length = v.length := by
  induction l generalizing v with
  | nil => rfl
  | cons a t ih => rw [List.foldl_cons, ih, shaRound_length]

theorem shaBlocks_length {w : Nat} (p : ShaParam) (k : List (BitVec w)) (b n : Nat) (h : List (BitVec w)) (l : List Byte) :
    (shaBlocks p k b n h l).length = h.length := by
  induction n generalizing h l with
  | zero => rfl
  | succ n ih => rw [shaBlocks, ih]; simp [shaBlock, shaRounds_length]

theorem leBytes_length (n x : Nat) : (leBytes n x).length = n := by
  induction n generalizing x with
  | zero => rfl
  | succ n ih => simp [leBytes, ih]

theorem sha256_length (l : List Byte) : (sha256 l).length = 32 := by
  have e (r : List (BitVec 32)) : ((r.map (fun x => beBytes 4 x.toNat)).flatten).length = 4 * r.length := by
    induction r with
    | nil => rfl
    | cons a t ih => rw [List.map_cons, List.flatten_cons, List.length_append, ih, beBytes, List.length_reverse, leBytes_length, List.length_cons]; omega
  rw [sha256, e, shaBlocks_length]; rfl

/-- The tag computed is the tag checked. -/
theorem signed_auth (f : Frame) (d : Dev) (h : authBut f d = true) : frameAuth (signed f d) d = true := by
  have n : ((hmacSha256 (spGet [] d.kmd.keys f.keyId.toNat) (frameBytes f)).take 16).length = 16 := by
    rw [List.length_take, hmacSha256, sha256_length]; rfl
  have b := leNat_lt ((hmacSha256 (spGet [] d.kmd.keys f.keyId.toNat) (frameBytes f)).take 16)
  have t := leBytes_leNat ((hmacSha256 (spGet [] d.kmd.keys f.keyId.toNat) (frameBytes f)).take 16)
  rw [n] at b t
  simp only [authBut, Bool.and_eq_true] at h
  have g : leBytes 16 (signed f d).tag.toNat = (hmacSha256 (spGet [] d.kmd.keys f.keyId.toNat) (frameBytes f)).take 16 := by
    rw [signed, BitVec.toNat_ofNat, Nat.mod_eq_of_lt (by simpa using b), t]
  have e : frameBytes (signed f d) = frameBytes f := rfl
  simp only [frameAuth, e, g, Bool.and_eq_true]
  exact ⟨⟨⟨h.1.1, beq_self_eq_true _⟩, h.1.2⟩, h.2⟩

theorem signed_heard (f : Frame) (d : Dev) (h : heardBut f d = true) : Heard (signed f d) d := by
  simp only [heardBut, Bool.and_eq_true] at h
  obtain ⟨⟨⟨⟨⟨⟨h1, h2⟩, h3⟩, h4⟩, h5⟩, h6⟩, h7⟩ := h
  have e : keptAnswer (signed f d) d = keptAnswer f d := rfl
  have g : bootRefuses (signed f d) d = bootRefuses f d := rfl
  exact ⟨h1, h2, h3, signed_auth f d h4, of_decide_eq_true h5, by rw [e]; simpa using h6, by rw [g]; simpa using h7⟩

theorem signed_taken (key : Nat) (f : Frame) (d : Dev) (h : takes key f d = true) : WriteTaken (signed f d) key d := by
  simp only [takes, Bool.and_eq_true, beq_iff_eq] at h
  exact ⟨signed_heard f d h.1.1.1, h.1.1.2, h.1.2, h.2⟩

/-- What a frame that is heard comes to. -/
theorem heard_request (f : Frame) (s : State) (h : Heard f s.dev) :
    kmdFrame f s = request f { s with dev := cntInc (objCnt 0x101006) s.dev } := by
  obtain ⟨h1, h2, h3, h4, -⟩ := h
  have e : frameAuth f (cntInc (objCnt 0x101006) s.dev) = frameAuth f s.dev := rfl
  simp [kmdFrame, h1, h2, h3, h4, e]

/-- The state after a frame that is heard. -/
def after (f : Frame) (s : State) : State := request f { s with dev := cntInc (objCnt 0x101006) s.dev }

def kmdD (g : Kmd → Kmd) (s : State) : State := { s with dev := { s.dev with kmd := g s.dev.kmd } }
def healthD (g : Health → Health) (s : State) : State := { s with dev := { s.dev with health := g s.dev.health } }
/-- A live module with a key and a management address. -/
def sMg : State := kmdD (fun k => { k with keys := [(0, mgKey)], mac := 0x024B34003F04 }) sPow
def reqBody (key : Nat) : List Byte := leBytes 2 (key / 256) ++ leBytes 1 key
def readF (key : Nat) (s : State) : Frame := mk s.dev 1 5 (reqBody key ++ [0])
def rdBlkF (key off len : Nat) (s : State) : Frame := mk s.dev 3 5 (reqBody key ++ [0] ++ leBytes 4 off ++ leBytes 2 len ++ [0, 0])
def blkF (key ty off total : Nat) (b : List Byte) (s : State) : Frame :=
  mk s.dev 4 5 (reqBody key ++ leBytes 1 ty ++ leBytes 4 off ++ leBytes 4 total ++ leBytes 2 b.length ++ [0, 0] ++ b)
def writeF (key ty eff : Nat) (b : List Byte) (s : State) : Frame :=
  mk s.dev 2 5 (reqBody key ++ leBytes 1 ty ++ leBytes 8 eff ++ leBytes 4 b.length ++ b)
def beatF (seq : Nat) (s : State) : Frame := mk s.dev 6 5 (leBytes 4 seq ++ [0, 0, 0, 0])
/-- The answer kept last, with its checks of R494 and R495. -/
def answered (f : Frame) (body : List Byte) (t : State) : Bool :=
  t.dev.kmd.lastCtr == f.counter && t.dev.kmd.answers.getLast? == some ⟨f.reqId, f.mtype.toNat, frameKey f / 256, frameKey f % 256, body⟩
/-- The frame is heard, and its answer has the abort code. -/
def asked (f : Frame) (s : State) (code : Nat) (p : State → Bool) : Bool :=
  heardBut f s.dev && (let t := after f s; ((t.dev.kmd.answers.getLast?).map (fun a => a.body.take 1)) == some (leBytes 1 code) && p t)

theorem witness_FramesAndReads :
    let f := readF 0x600001 sMg
    let deaf := healthD (fun h => { h with state := .off }) sMg
    let noKey := { f with keyId := 1 }
    let kept := kmdD (fun k => { k with answers := [⟨9, 1, 0x6000, 1, [1, 2]⟩] }) sMg
    let x (data : List Byte) := kmdD (fun k => { k with xfer := some ⟨0x4200, 6, 4, data, 0⟩ }) sMg
    let blobs := kmdD (fun k => { k with blobs := [(0x420006, [1, 2, 3, 4])] }) sMg
    let hb := kmdD (fun k => { k with ev := [⟨1, 2, 0, 0, 0, 0, 0⟩, ⟨7, 2, 0, 0, 0, 0, 0⟩], mgmtLost := true }) sMg
    all [idle (.pplW f) sMg, idle (.kmdRead f) deaf, idle (.kmdRead { f with etype := 0x0800 }) sMg,
      answers (.kmdRead { f with version := 2 }) sMg (fun t => only [.cnt] sMg t && grows [objCnt 0x101006, objCnt 0x101007] sMg.dev t.dev),
      frameOk noKey && !(frameAuth noKey sMg.dev),
      answers (.kmdRead noKey) sMg (fun t => grows [objCnt 0x101006, objCnt 0x101008] sMg.dev t.dev && t.dev.kmd.lastCtr == 0 && t.dev.kmd.sent.length == 1),
      frameOk f && authBut f sMg.dev, grows [objCnt 0x101006, objCnt 0x10100A] sMg.dev (after { f with queued := 8 } sMg).dev,
      (keptAnswer f kept.dev).isSome && authBut f kept.dev, grows [objCnt 0x101006, objCnt 0x101009] kept.dev (after f kept).dev,
      (after f kept).dev.kmd.answers == kept.dev.kmd.answers && (after f kept).dev.kmd.lastCtr == 5,
      asked f sMg 0 (fun _ => true), objRow 0x600009 == none && asked (readF 0x600009 sMg) sMg 2 (answered (readF 0x600009 sMg) (plainAnswer 2 0 0x600009 sMg.dev)),
      asked (readF 0x999901 sMg) sMg 1 (fun _ => true), asked (readF 0x602001 sMg) sMg 5 (fun _ => true),
      asked (readF 0x210002 sMg) sMg 0 (answered (readF 0x210002 sMg) (respBody 0 2 0x210002 [] [0x60, 0x09])),
      asked (rdBlkF 0x420006 1 3 blobs) blobs 0 (answered (rdBlkF 0x420006 1 3 blobs) (respBody 0 8 0x420006 (leBytes 8 4) [2, 3, 4])),
      asked (rdBlkF 0x420006 1 4 blobs) blobs 4 (fun _ => true), asked (rdBlkF 0x420006 0 0 blobs) blobs 4 (fun _ => true),
      storedKeys.contains 0x210001 && takes 0x210001 (writeF 0x210001 1 0 [7] sMg) sMg.dev,
      asked (writeF 0x210001 1 0 [7] sMg) sMg 0 (fun t => objGet t.dev 0x210001 == 7),
      asked (writeF 0x210001 1 0 [99] sMg) sMg 4 (fun t => t.dev.kmd.objs == sMg.dev.kmd.objs && t.dev.kmd.lastCtr == 5),
      takes 0x530002 (writeF 0x530002 3 0 (leBytes 4 10) sMg) sMg.dev && asked (writeF 0x530002 3 0 (leBytes 4 10) sMg) sMg 0 (fun t => objGet t.dev 0x530002 == 10 &&
        t.dev.memc == { sMg.dev.memc with gateKeep := t.dev.memc.gateKeep } && (List.range 116).all (fun n => !(storeIdle sMg.dev n) || gateSetting t.dev n == gateSetting sMg.dev n)),
      storeIdle sMg.dev 115,
      (let up : State := stateD .recovery sMg
       !(keyListed 0x420001 up.dev) && asked (blkF 0x420001 8 0 32768 [1] up) up 6 (fun t => t.dev.kmd.xfer == none)),
      asked (blkF 0x420004 8 1 4096 [1] (x [])) (x []) 4 (fun t => t.dev.kmd.xfer == (x []).dev.kmd.xfer),
      (let f := blkF 0x420006 8 3 4 [16] (x [1, 2, 3])
       blockWhole f (x [1, 2, 3]).dev == some ⟨0x420006, 8, 0, [1, 2, 3, 16], true⟩ && asked f (x [1, 2, 3]) 4 (fun t => t.dev.kmd.xfer == none && t.dev.kmd.blobs == (x []).dev.kmd.blobs)),
      asked (blkF 0x420006 2 0 4 [1] sMg) sMg 3 (fun t => t.dev.kmd.xfer == none), asked (blkF 0x420004 8 0 4096 [1] (x [])) (x []) 7 (fun t => t.dev.kmd.xfer == (x []).dev.kmd.xfer),
      asked (blkF 0x420006 8 1 4 [1] (x [])) (x []) 4 (fun t => t.dev.kmd.xfer == none),
      asked (blkF 0x420006 8 0 4 [1] sMg) sMg 0 (fun t => t.dev.kmd.xfer == some ⟨0x4200, 6, 4, [1], sMg.dev.tim.now⟩),
      asked (blkF 0x420006 8 2 4 [3] (x [1, 2])) (x [1, 2]) 0 (fun t => t.dev.kmd.xfer == some ⟨0x4200, 6, 4, [1, 2, 3], sMg.dev.tim.now⟩),
      heardBut (beatF 2 hb) hb.dev, let t := after (beatF 2 hb) hb; t.dev.kmd.ev.map (·.seq) == [7] && !t.dev.kmd.mgmtLost && t.dev.kmd.ctlMac == some 0x020000000001 &&
        grows [objCnt 0x101006, objCnt 0x102002] hb.dev t.dev] = true := by decide +kernel

/-- The write is taken, and what comes of it. -/
def did (key ty eff : Nat) (b : List Byte) (s : State) (p : State → Bool) : Bool :=
  let f := writeF key ty eff b s
  let t := after f s
  takes key f s.dev && objLive s.dev key && s.dev.rst.withdraw.isNone && answered f (plainAnswer 0 0 key s.dev) t && p t
def mg (s : State) : State := kmdD (fun k => { k with keys := [(0, mgKey)], mac := 0x024B34003F04 }) s
/-- The module with a context in slot 3 and a key, in a state. -/
def mgIn (x : MState) : State := stateD x (mg sNic)
def mgLive (g : Dev → Dev) : State := mg (liveD g)
def seg0 : List Byte := List.replicate 32760 0
def sTable : State := stateD .maint <| kmdD (fun k => { k with xfer := some ⟨0x4200, 1, 32768, seg0, 0⟩ }) { sMg with dev := { sMg.dev with rtr := { sMg.dev.rtr with node := 0xFFF } } }
/-- The entry of node 4095, the module's own: its NIC port. -/
def tail0 : List Byte := [0, 0, 0, 0, 0, 0, 0, 0xA4]
def fTable : Frame := blkF 0x420001 8 32760 32768 tail0 sTable

theorem witness_ActingWrites_time :
    let lk := mgLive (fun d => { d with tim := { d.tim with state := .locked, everLocked := true } })
    let back := mgLive (fun d => { d with tim := { d.tim with backwardHold := true, backwardBy := 512, count := 1024 } })
    let n := mgIn .ready
    let ls := withObj 0xA00001 0 (withObj 0xA00002 0x123 (kmdD (fun k => { k with blobs := [(0x420004, [1])] }) { n with dev := { n.dev with
      tim := { n.dev.tim with state := .locked }, nic := { n.dev.nic with repro := 8 } } }))
    all [did 0x210002 2 0x100000 (leBytes 2 1800) lk (fun t => t.dev.tim.sched == [⟨0x100000, .cap 1800⟩]),
      did 0x212001 2 0x200000 (leBytes 2 0) lk (fun t => t.dev.tim.sched == [⟨0x200000, .ff 0⟩]),
      did 0x301003 1 0 [1] back (fun t => t.dev.tim.count == 512 && !t.dev.tim.backwardHold && t.dev.tim.sched.isEmpty),
      did 0xA00003 9 0 (leBytes 8 0x300000) ls (fun t => t.dev.ls.state == 1 && t.dev.ls.ctx == 0x123 && t.dev.tim.sched == [⟨0x300000, .lsStart 0 0x123⟩]),
      did 0xA00004 1 0 [1] { ls with dev := { ls.dev with ls := { LockStep.reset with state := 2 } } } (fun t => t.dev.ls.state == 4 && t.dev.ls.endCause == 5),
      did 0xA00004 1 0 [1] ls (fun t => t.dev.ls == LockStep.reset)] = true := by decide +kernel

theorem witness_ActingWrites_ports :
    let at_ (x : Port) : State := mgLive (fun d => { d with ports := { d.ports with port := [(7, x)] } })
    let few := { port0 .held with lanes := 0, retired := 7 }
    let maint (x : Port) : State := stateD .maint (at_ x)
    let adm := withObj 0x411001 9 (at_ { port0 .active with ident := some { ident1 with incarnation := 99 } })
    let b : List Byte := [7, 0, 0, 0] ++ leBytes 4 ident1.incarnation.toNat ++ leBytes 4 9
    all [portsRun (at_ (port0 .active)).dev 7, did 0x440009 1 0 [7] (at_ (port0 .active)) (inState .drain 1), did 0x440009 1 0 [7] (at_ (port0 .held)) (fun t => (portGet t.dev 7).st == .detect),
      did 0x440009 1 0 [7] (at_ few) (fun t => (portGet t.dev 7).st == .retired),
      did 0x44000B 2 0 [0x0C, 7] (maint { port0 .held with retired := 7 }) (fun t => (portGet t.dev 7).retired == 3 && (portGet t.dev 7).st == .held),
      (List.range 16).all (fun p => portsRun (at_ (port0 .active)).dev p && decide (2 ≤ laneCount (usable (at_ (port0 .active)).dev p))),
      did 0x440001 2 0 (leBytes 2 0xFF7E) (at_ (port0 .active)) (fun t => inState .drain (portGet t.dev 7).cause t && (portGet t.dev 0).st == .disabled && objGet t.dev 0x440001 == 0xFF7E),
      did 0x411003 8 0 b adm (fun t => t.dev.health.portAdmitStored == [(7, ident1.incarnation)]),
      did 0x411003 8 0 b (withObj 0x411001 9 (at_ (port0 .active))) (fun t => t.dev.health.portAdmitted == [(7, ident1.incarnation)])] = true := by decide +kernel

theorem witness_ActingWrites_recovery :
    let up := mg sPow
    let m := mgIn .maint
    let n := mgIn .ready
    let hold := withObj 0x411001 9 (stateD .start (mg (rstD (fun r => { r with phase := 7, hold := 2 }))))
    let oos := stateD .outOfService (healthD (fun h => { h with oosMark := true, sysResets := [1, 2, 3] }) (mg (rstD (fun r => { r with phase := 0 }))))
    all [did 0x602001 1 0 [1] (mg (active sPow)) (fun t => t.dev.rst.withdraw == some .sysReset && t.dev.rst.cause.getLsbD 3),
      anyActive up.dev == false && takes 0x602001 (writeF 0x602001 1 0 [1] up) up.dev && begun up (after (writeF 0x602001 1 0 [1] up) up),
      did 0x602002 1 0 [1] n (fun t => t.dev.rst.coreBusy && t.dev.rst.cause.getLsbD 4 && (lndGet t.dev 3).trk.isEmpty && grew (rstBase + 0x218) n.dev t.dev),
      slotOfId n.dev 0x123 == some 3, did 0x602003 2 0 (leBytes 2 0x123) n (fun t => t.dev.health.scrub.map (·.slot) == some 3 && grew (rstBase + 0x220) n.dev t.dev),
      did 0x411002 3 0 (leBytes 4 9) hold (fun t => t.dev.health.state == .ready && t.dev.rst.phase == 8 && t.dev.rst.hold == 0),
      anyActive oos.dev == false && takes 0x620004 (writeF 0x620004 1 0 [1] oos) oos.dev && objLive oos.dev 0x620004,
      let t := after (writeF 0x620004 1 0 [1] oos) oos; begun oos t && !t.dev.health.oosMark && t.dev.health.sysResets.isEmpty,
      did 0x600002 1 0 [4] n (fun t => t.dev.kmd.pendState == 4 && t.dev.health == n.dev.health), did 0x600002 1 0 [4] m (fun t => t.dev.health.state == .quiesced),
      did 0x600002 1 0 [5] (mgIn .quiesced) (fun t => t.dev.health.state == .maint), did 0x600002 1 0 [2] m (fun t => t.dev.health.state == .ready),
      did 0x610009 2 0 (leBytes 2 1) (healthD (fun h => { h with defects := [⟨1, 0, 5, 0, 0⟩, ⟨3, 0, 6, 0, 0⟩] }) m) (fun t => t.dev.health.defects.map (·.unit) == [5])] = true := by decide +kernel

theorem witness_ActingWrites_rest :
    let q := mgIn .quiesced
    let sens := mg (coolD (fun c => { c with sensingDegraded := true, sensingCause := 1 }))
    let tr := { sMg with dev := { sMg.dev with fw := { sMg.dev.fw with trial := 1, confirmUntil := some 5 } } }
    let e : List Byte := leBytes 2 0x101 ++ leBytes 8 (2 ^ 63 + 7 * 2 ^ 57)
    all [did 0x240003 1 0 [1] sens (fun t => !t.dev.pwr.cool.sensingDegraded && !t.dev.health.degraded.getLsbD 4),
      did 0x420002 8 0 e sMg (fun t => spGet 0 t.dev.rtr.table 0x101 == 0x8E00000000000000 && spGet 0 t.dev.rtr.table 0xFF == spGet 0 sMg.dev.rtr.table 0xFF),
      did 0x510011 1 0 [1] q (fun t => t.dev.memc.ilv == stagedRegions q.dev),
      did 0x803001 1 0 [1] tr (fun t => t.dev.fw.trial == 0 && t.dev.fw.confirmUntil == none)] = true := by decide +kernel

theorem zeroTable (n : Nat) (l : List Byte) : tableEntries (List.replicate (8 * n) 0 ++ l) = List.replicate n 0 ++ tableEntries l := by
  induction n with
  | zero => rfl
  | succ n ih =>
    rw [show 8 * (n + 1) = 8 * n + 1 + 1 + 1 + 1 + 1 + 1 + 1 + 1 from rfl]
    simp only [List.replicate_succ, List.cons_append, tableEntries, ih]; rfl

theorem fTable_body : fTable.body.drop 16 = tail0 := by decide +kernel

/-- A table of the right length with entries that may stand is taken. -/
theorem tableTaken (l : List Byte) (n : l.length = 32768) (b : blobOk 0x420001 l sTable.dev = true) :
    writeAbort ⟨0x420001, 8, 0, l, true⟩ sTable.dev = (0, 0) := by
  have r : objRow 0x420001 = some ⟨0x420001, 8, .rw, 0x32, 0⟩ := by decide +kernel
  have g1 : lengthOk ⟨0x420001, 8, .rw, 0x32, 0⟩ ⟨0x420001, 8, 0, l, true⟩ = true := by simp [lengthOk, blobSize, n]
  have g2 : valueOk ⟨0x420001, 8, .rw, 0x32, 0⟩ ⟨0x420001, 8, 0, l, true⟩ sTable.dev = true := by
    simp only [valueOk, if_true]; exact b
  have g3 (v : Nat) : schedCode 0x420001 v 0 sTable.dev = 0 := rfl
  have g4 (v : Nat) : condOk 0x420001 v 0 sTable.dev = true := rfl
  have g5 (v : Nat) : busyReason 0x420001 v 0 sTable.dev = 0 := rfl
  have g6 : stateListed ⟨0x420001, 8, .rw, 0x32, 0⟩ sTable.dev = true := by decide +kernel
  unfold writeAbort
  simp [r, g1, g2, g3, g4, g5, g6]

/-- The last eight bytes of a table, and the whole value they complete. -/
theorem witness_ActingWrites_table : heardBut fTable sTable.dev = true ∧ fTable.mtype = 4 ∧ frameKey fTable = 0x420001 ∧
    blockAbort (frameKey fTable) (bodyN fTable 3 1) = 0 ∧ (∀ x, sTable.dev.kmd.xfer = some x → x.idx * 256 + x.sub = 0x420001) ∧
    blockWhole fTable sTable.dev = some ⟨0x420001, 8, 0, seg0 ++ tail0, true⟩ ∧
    writeAbort ⟨0x420001, 8, 0, seg0 ++ tail0, true⟩ sTable.dev = (0, 0) ∧ objLive sTable.dev 0x420001 = true ∧
    sTable.dev.rst.withdraw = none := by
  have x : sTable.dev.kmd.xfer = some ⟨0x4200, 1, 32768, seg0, 0⟩ := rfl
  have f : frameKey fTable = 0x420001 ∧ bodyN fTable 3 1 = 8 ∧ bodyN fTable 4 4 = 32760 ∧ bodyN fTable 8 4 = 32768 ∧ bodyN fTable 12 2 = 8 := by
    decide +kernel
  refine ⟨by decide +kernel, rfl, f.1, by decide +kernel, ?_, ?_, ?_, by decide +kernel, by decide +kernel⟩
  · intro y h; rw [x] at h; cases h; rfl
  · have l : seg0.length = 32760 := List.length_replicate
    have s : blockSoFar 0x420001 32760 32768 8 sTable.dev = some seg0 := by
      generalize seg0 = g at x l
      unfold blockSoFar; rw [x]; simp [l]
    unfold blockWhole
    rw [f.1, f.2.1, f.2.2.1, f.2.2.2.1, f.2.2.2.2, s]
    simp only [fTable_body]
    rw [if_pos (by rw [List.length_append, l]; rfl)]
  · have b : blobOk 0x420001 (seg0 ++ tail0) sTable.dev = true := by
      have z := zeroTable 4095 tail0
      have o : ∀ i, i < 4095 → routeEntryOk (i == sTable.dev.rtr.node.toNat) 0 = true := by
        intro i h
        have ne : (i == sTable.dev.rtr.node.toNat) = false := by
          rw [show sTable.dev.rtr.node.toNat = 4095 from rfl]; exact beq_false_of_ne (by omega)
        rw [ne]; decide +kernel
      have w : routeEntryOk (4095 == sTable.dev.rtr.node.toNat) 0xA400000000000000 = true := by decide +kernel
      unfold blobOk
      rw [show seg0 = List.replicate (8 * 4095) 0 from rfl, z, show tableEntries tail0 = [0xA400000000000000] from rfl]
      simp only [List.all_eq_true]
      intro p hp
      obtain ⟨i, hi, e⟩ := List.mem_iff_getElem.mp hp
      rw [List.getElem_zipIdx] at e
      subst e
      rcases Nat.lt_or_ge i 4095 with h | h
      · rw [List.getElem_append_left (by rw [List.length_replicate]; exact h), List.getElem_replicate]
        show routeEntryOk (0 + i == sTable.dev.rtr.node.toNat) 0 = true
        rw [Nat.zero_add]; exact o i h
      · rw [List.length_zipIdx, List.length_append, List.length_replicate, List.length_singleton] at hi
        obtain rfl : i = 4095 := by omega
        rw [List.getElem_append_right (Nat.le_of_eq List.length_replicate)]
        simp only [List.length_replicate]
        exact w
    have n : (seg0 ++ tail0).length = 32768 := by
      have l : seg0.length = 32760 := List.length_replicate
      have m : tail0.length = 8 := rfl
      have a : (seg0 ++ tail0).length = seg0.length + tail0.length := List.length_append
      omega
    generalize seg0 ++ tail0 = l at b n
    exact tableTaken l n b

theorem witness_ManagementTimers :
    let off := stateD .off sMg
    let n := mgIn .ready
    let known (s : State) : State := kmdD (fun k => { k with ctlMac := some 5 }) s
    let pend (x : State) : State := kmdD (fun k => { k with pendState := 4 }) x
    let tr (n : Nat) (c : Option Nat) : State := { sMg with dev := { sMg.dev with fw := { sMg.dev.fw with trial := n, confirmUntil := c } } }
    let lost := kmdD (fun k => { k with mgmtLost := true }) sMg
    let ev : State := kmdD (fun k => { k with ev := [⟨1, 2, 0, 0, 0, 0, 0⟩] }) sMg
    all [idle (.telemetryPeriod 700) off, hubUp sMg.dev && isLive sMg.dev && sMg.dev.tim.slew == 0,
      answers (.telemetryPeriod 700) (known sMg) (fun t => !t.dev.kmd.overSent && t.dev.tim.count.toNat % 2 ^ 24 == 0 && t.dev.kmd.sent.isEmpty) == (objGet sMg.dev 0x700001 == 0),
      answers (.telemetryPeriod 700) (withObj 0x700001 1 (known sMg)) (fun t => t.dev.kmd.telemetry.take 8 == leBytes 8 (t.dev.tim.count.toNat / 2 ^ 24) && t.dev.kmd.sent.length == 1),
      idle .writeBlockTimeout sMg, answers .writeBlockTimeout sTable (fun t => t.dev.kmd.xfer == none && t.dev.tim.now == 5 * 10 ^ 9),
      isUp n.dev && enginesIdle n.dev && topkIdle n.dev && !n.dev.rst.coreBusy && n.dev.health.scrub == none && (List.range 32).all (fun m => !(kernelRuns n.dev m)),
      answers .quiesceComplete (pend n) (fun t => only [.health, .kmd, .cnt] (pend n) t && t.dev.health.state == .quiesced && t.dev.kmd.pendState == 0), idle .quiesceComplete n,
      answers .quiesceTimeout (pend n) (fun t => only [.tim, .kmd, .cnt] (pend n) t && t.dev.kmd.pendState == 0 && t.dev.health == n.dev.health), idle .quiesceTimeout n,
      answers .trialExpiry (tr 1 (some 7)) (fun t => only [.fw, .tim, .kmd, .cnt] (tr 1 (some 7)) t && t.dev.fw.trial == 2 && t.dev.fw.confirmUntil == none && t.dev.tim.now == 7),
      idle .trialExpiry (tr 1 none), idle .trialExpiry (tr 2 (some 7)), isAdmitted sMg.dev && !sMg.dev.kmd.mgmtLost,
      answers .mgmtLost sMg (fun t => t.dev.kmd.mgmtLost && t.dev.health.degraded.getLsbD 5 && t.dev.tim.now == 30 * 10 ^ 9 && grew (objCnt 0x102003) sMg.dev t.dev),
      idle .mgmtLost lost, idle .mgmtLost off,
      answers .lostCapApply lost (fun t => t.dev.pwr.lim.lostCap && t.dev.pwr.lim.limit == min lost.dev.pwr.lim.eff.pplW (lost.dev.pwr.lim.eff.lostCapPct * lost.dev.pwr.lim.eff.pplW / 100)),
      idle .lostCapApply sMg, idle .eventResend sMg, idle .eventResend (known sMg), idle .eventResend ev,
      kmdHears ev.dev, answers .eventResend (known ev) (fun t => t.dev.kmd.ev.length == 1 && t.dev.kmd.sent.length == 1)] = true := by decide +kernel

/-! ### Service port and test access port -/

def fwD (g : Fw → Fw) : State := { sPow with dev := { sPow.dev with fw := g sPow.dev.fw } }
def fwIs (g : Fw → Fw) (s t : State) : Bool := only [.fw] s t && t.dev.fw == g s.dev.fw
def refs (i : Instr) (s : State) (r : Nat) : Bool := answers i s (fwIs (fun w => { w with error := true, lastResult := r, irq := true }) s)
def svcRows (addr : W32) (n : Nat) (data : List Byte) : List Instr := [.readId addr, .readFlash addr n, .stageErase addr data, .stageProgram addr data,
  .stageCommit addr data, .keyWrite addr data, .keyErase addr data]
def keyBytes : List Byte := List.replicate 32 7

theorem witness_ServicePort :
    let off := stateD .off sPow
    let busy := fwD (fun w => { w with job := some .erase })
    let copy := fwD (fun w => { w with copying := true })
    let st (n : Nat) := fwD (fun w => { w with stState := n })
    let took (i : Instr) (s : State) (op : Nat) (g : Fw → Fw) : Bool := answers i s (fwIs (fun w => g { w with lastCmd := op, error := false }) s)
    all [hubUp sPow.dev && !svcBusy sPow.dev.fw && svcBusy busy.dev.fw, idle (.readStatus 0) off && (svcRows 0 4 []).all (fun i => idle i off),
      (let ext := { sPow with dev := { sPow.dev with jtag := { Jtag.reset with ir := 0 } } }
       idle (.readStatus 0) ext && (svcRows 0 4 []).all (fun i => idle i ext)),
      (svcRows 0 4 []).all (fun i => refs i busy 0x10) && (svcRows 0 4 []).all (fun i => refs i copy 0x10),
      answers (.readStatus 0) busy (fwIs (fun w => { w with readData := leBytes 8 (w.stagedBytes * 2 ^ 32 + 2 ^ 31 + w.lastResult * 2 ^ 16 + w.stState * 2 ^ 12 + w.lastCmd), error := false, irq := false }) busy),
      refs (.readStatus 8) sPow 0x11, refs (.readId 8) sPow 0x11,
      answers (.readId 0) sPow (fun t => t.dev.fw.readData == leBytes 4 (if sPow.dev.fuses.grade = 96 then 0x4B041B00 else 0x4B042B00) ++ [1, 0, 0, 0]),
      answers (.readFlash 0x5FFFFFE 2) (fwD (fun w => { w with flash := [(0x5FFFFFF, 3)] })) (fun t => t.dev.fw.readData == [0xFF, 3]),
      refs (.readFlash 0x5FFFFFE 3) sPow 0x11, answers (.readFlash 0x7000000 1) sPow (fun t => t.dev.fw.readData == [0xFF]), refs (.readFlash 0x6000000 4) sPow 0x11,
      took (.stageErase 0 []) (fwD (fun w => { w with stVersion := 7 })) 0x20 (fun w => { w with job := some .erase, stState := 4, stVersion := 0 }), refs (.stageErase 0 [1]) sPow 0x11,
      took (.stageCommit 0 []) (st 1) 0x31 (fun w => { w with job := some .commit }), refs (.stageCommit 0 []) (st 5) 0x13, refs (.stageCommit 4 []) (st 1) 0x11,
      refs (.stageProgram 4 [1]) sPow 0x11, refs (.stageProgram 0x1FFFF00 (List.replicate 257 0)) sPow 0x11, refs (.stageProgram 0 []) sPow 0x11,
      took (.stageProgram 0x1FFFF00 [1, 2]) sPow 2 (fun w => { w with bufs := [(0x1FFFF00, [1, 2])], progd := [(0x1FFFF00, 2)], stState := 1 }),
      refs (.stageProgram 0x100 [1]) (fwD (fun w => { w with progd := [(0, 257)] })) 0x12, took (.stageProgram 0x100 [1]) (fwD (fun w => { w with progd := [(0, 256)] })) 2
        (fun w => { w with bufs := [(0x100, [1])], progd := [(0, 256), (0x100, 1)], stState := 1 }),
      refs (.stageProgram 0x100 [1]) (st 2) 0x13, refs (.keyWrite 2 keyBytes) sPow 0x11, refs (.keyWrite 0 [1]) sPow 0x11, refs (.keyWrite 0 keyBytes) (mg sPow) 0x14,
      took (.keyWrite 1 keyBytes) (mg sPow) 0x41 (fun w => { w with job := some (.keyWrite 1 keyBytes) }), refs (.keyErase 0 [1]) sPow 0x11, refs (.keyErase 1 []) sPow 0x15,
      took (.keyErase 1 []) (stateD .maint sPow) 0x42 (fun w => { w with job := some (.keyErase 1) })] = true := by decide +kernel

theorem witness_ServiceEnds :
    let page := fwD (fun w => { w with bufs := [(256, [1, 2]), (512, [3])], flash := [(0x4000101, 9), (0x4000102, 8)] })
    let job (j : SvcJob) := fwD (fun w => { w with job := some j, flash := [(5, 1), (0x4000000, 1), (0x6000000, 2)], stState := 1 })
    all [idle (.serviceCommandDone false) sPow, answers (.serviceCommandDone false) page (fun t => only [.fw] page t && t.dev.fw.bufs == [(512, [3])] &&
        t.dev.fw.stagedBytes == page.dev.fw.stagedBytes + 2 && [0x40000FF, 0x4000100, 0x4000101, 0x4000102].map (spGet flashErased t.dev.fw.flash) == [0xFF, 1, 2, 8]),
      answers (.serviceCommandDone true) page (fwIs (fun w => { w with bufs := [(512, [3])], error := true, lastResult := 0x16, irq := true }) page),
      answers (.serviceCommandDone true) (job .erase) (fwIs (fun w => { w with job := none, error := true, lastResult := 0x16, irq := true }) (job .erase)),
      answers (.serviceCommandDone false) (job .erase) (fun t => t.dev.fw.flash == [(5, 1), (0x6000000, 2)] && t.dev.fw.stState == 0 && t.dev.fw.job == none),
      answers (.serviceCommandDone false) (job .commit) (fun t => only [.fw, .kmd, .cnt] (job .commit) t && t.dev.fw.stResult == 1 && t.dev.fw.stState == 3 && t.dev.fw.error),
      answers (.serviceCommandDone false) (job (.keyWrite 1 keyBytes)) (fun t => spGet [] t.dev.kmd.keys 1 == keyBytes && t.dev.fw.job == none),
      answers (.serviceCommandDone false) (mg (job (.keyErase 0))) (fun t => spGet [] t.dev.kmd.keys 0 == [])] = true := by decide +kernel

/-- Strapped to slot 2 of tray 37, and latched. -/
def sStrap : State := { sPow with dev := { sPow.dev with pins := { sPow.dev.pins with boardSlot := 2, trayId := 37, latched := true }
                                                         fuses := { sPow.dev.fuses with boardSlot := 2, trayId := 37 } } }

/-- The bits captured from pins driven from outside are free, so the captured word is not compared. -/
theorem witness_TestAccessPort :
    let dead := { sPow with dev := { sPow.dev with rst := { sPow.dev.rst with aon := false } } }
    all [sStrap.dev.rst.aon, answers (.extest (some 5)) sStrap (fun t => t.dev.jtag.ir == 0 && t.dev.jtag.bsr == 5), answers (.samplePreload none) sStrap (fun t =>
        t.dev.jtag.ir == 2 && t.dev.jtag.bsr == sStrap.dev.jtag.bsr),
      answers (.bypass 0x7F) sStrap (fun t => only [.jtag] sStrap t && t.dev.jtag == { sStrap.dev.jtag with ir := 0x7F, dr := 0 }), idle (.bypass 0x20) sStrap,
      answers (.trstN false) sStrap (fun t => only [.jtag] sStrap t && t.dev.jtag == { sStrap.dev.jtag with ir := 1 }), idle (.trstN true) sStrap,
      answers .idcode sStrap (fun t => t.dev.jtag.ir == 1), answers .aonStatus sStrap (fun t => t.dev.jtag.ir == 0x20 && t.dev.jtag.dr.extractLsb' 32 32 == 1 &&
        t.dev.jtag.dr.extractLsb' 64 32 == BitVec.ofNat 32 (3 + 4 * (if sStrap.dev.rst.prsntLow then 0 else 1) + 2 * 16 + 37 * 64 + 2 * 4096 + 37 * 16384 + 2 ^ 23)),
      porHeld sHeld.dev, answers .aonStatus sHeld (fun t => t.dev.jtag.dr.getLsbD 67),
      [Instr.extest none, .samplePreload (some 3), .bypass 0xFF, .trstN false, .idcode, .aonStatus].all (fun i => idle i dead)] = true := by decide +kernel

/-! ### The host interface: ring 5 of slot 3, whose context is 0x123 -/

def ring5 (q : Ring) : State := { sNic with dev := ringPut 3 5 q sNic.dev }
def q5 (t : State) : Ring := ringGet t.dev 3 5
/-- An enabled ring of 16 entries with vector 16: descriptors 7 to 8 wait. -/
def ringA : Ring := ⟨0x10000, 0x20000, 0x80100004, 9, 7, 7, [], none⟩
def onlyRing (s t : State) : Bool := (t.dev.hif.rings.filter (fun e => e.1 != 29)) == (s.dev.hif.rings.filter (fun e => e.1 != 29))
/-- A descriptor: kind, length at byte 32, landings at byte 40. -/
def descOf (kind len set : Nat) : BitVec 1024 := BitVec.ofNat 1024 (kind + len * 2 ^ 256 + set * 2 ^ 320)
def descImage (x : BitVec 1024) : List Byte := leBytes 128 x.toNat
def wait (x : BitVec 1024) : Ring := { ringA with head := 8, fetched := [⟨7, x, none, 1⟩] }
def runs (x : BitVec 1024) (moved : Nat) : Ring := { ringA with head := 8, run := some { runOf x with moved := moved } }
def entryOut (s t : State) (q : Ring) (idx : W32) (x : BitVec 1024) (i : CplInfo) : Bool :=
  t.dev.hif.out == s.dev.hif.out ++ [entrySent s.dev 5 q idx x i] && (q5 t).prod == idx + 1
def badBell (off : Nat) (v : W32) (s : State) (bit : Nat) : Bool :=
  answers (.doorbell off 4 v) s (fun t => only [.hif, .cnt] s t && t.dev.hif.rings == s.dev.hif.rings && t.dev.hif.err.getLsbD bit &&
    (t.dev.hif.err.extractLsb' 24 5).toNat == 3 && (t.dev.hif.err.extractLsb' 29 3).toNat == 5 && grows [hifBase + 0x408] s.dev t.dev)

/-- Values one past each end of the legal range of a tail are refused; an unknown context has the slot of a free value. -/
theorem witness_HostRings_bells :
    let s := ring5 ringA
    let scrub := scrubD (fun h => { h with scrub := some scrub0 }) s
    let off := 0x123 * 0x1000 + 40
    all [hifUp s.dev, slotOfId s.dev 0x123 == some 3, slotOfId s.dev 0x124 == none, ringOn ringA,
      [10, 23].all (fun v => answers (.doorbell off 4 v) s (fun t => only [.hif, .cnt] s t && q5 t == { ringA with tail := v } && onlyRing s t && grows [hifBase + 0x400] s.dev t.dev)),
      badBell off 9 s 3, badBell off 24 s 3, badBell off 10 scrub 2, badBell off 10 (ring5 { ringA with cfg := 0x00100004 }) 2,
      answers (.doorbell (0x124 * 0x1000 + 40) 4 10) s (fun t => t.dev.hif.rings == s.dev.hif.rings && grows [hifBase + 0x408] s.dev t.dev),
      [(off, 8), (2 ^ 24, 4), (off + 0x40, 4), (off + 4, 4)].all (fun p => answers (.doorbell p.1 p.2 10) s (fun t => only [.cnt] s t && grows [hifBase + 0x408] s.dev t.dev))] = true := by decide +kernel

theorem witness_HostRings_fetches :
    let s := ring5 ringA
    let marker := descOf 3 0 0
    let bad := descOf 3 1 0
    let busy := ring5 { runs (descOf 2 64 0) 0 with head := 7 }
    let full := ring5 { ringA with fetched := List.replicate 4 ⟨7, 0, none, 0⟩ }
    all [fetchOut s.dev 3 5, fetchOut busy.dev 3 5, !(fetchOut full.dev 3 5), idle (.launchFetchDone 3 5 .error) full, idle (.hostCompletionTimeout 3 5) full,
      !(lReserved marker) && lKind marker == 3 && lReserved bad && !(bad.getLsbD 9),
      answers (.launchFetchDone 3 5 (.data (descImage marker))) s (fun t => only [.hif] s t && (q5 t).head == 8 && (q5 t).fetched == [⟨7, marker, none, s.dev.hif.readyNext + 1⟩] && onlyRing s t),
      answers (.launchFetchDone 3 5 (.data (descImage bad))) s (fun t => only [.hif, .cnt] s t && (q5 t).fetched.isEmpty && entryOut s t ringA 7 bad ⟨2, 1, 0xFF, 0, 0⟩),
      answers (.launchFetchDone 3 5 (.data (descImage bad))) busy (fun t => (q5 t).fetched == [⟨7, bad, some (2, 1), 0⟩] && (q5 t).run == (q5 busy).run),
      answers (.launchFetchDone 3 5 (.data (descImage marker))) busy (fun t => (q5 t).fetched == [⟨7, marker, none, 0⟩]),
      answers (.launchFetchDone 3 5 .error) busy (fun t => (q5 t).head == 8 && ((q5 t).fetched.map (fun x => (x.idx, x.verdict))) == [(7, some (8, 1))] && t.dev.hif.err.getLsbD 6 &&
        grew (hifBase + 0x430) s.dev t.dev),
      (dmaRuns busy.dev 3 5 1).isNone, answers (.hostCompletionTimeout 3 5) busy (fun t => (q5 t).head == 8 && t.dev.hif.err.getLsbD 6)] = true := by decide +kernel

theorem witness_HostRings_kernels :
    let named (s : State) : State := healthD (fun h => { h with lmap := (List.range 96).map (fun i => (i, i)) }) s
    let k := descOf 0 64 0x11
    let s := named (ring5 (wait k))
    let down := named (ring5 (wait (descOf 0 64 (2 ^ 95))))
    let gone := { down with dev := { down.dev with health := { down.dev.health with landState := down.dev.health.landState.map (fun p => (p.1, 3)) } } }
    let taken := { s with dev := { s.dev with lnd := [(4, lanesRun)] } }
    all [[Instr.kernelStart 3 5, .marker 3 5, .dmaToModule 3 5 (.data [1]), .dmaToHost 3 5].all (fun i => idle i (ring5 ringA)), (mayStart s.dev 3 5 0).isSome,
      (lSet k).filterMap (physOf s.dev) == [0, 4], setRuns s.dev [0, 4] && [0, 4].all (landingIdle s.dev) && !(reservedBefore s.dev 1 [0, 4]),
      answers (.kernelStart 3 5) s (fun t => (q5 t).fetched.isEmpty && (q5 t).run.map (fun r => (r.idx, r.desc, r.landings)) == some (7, k, [0, 4]) && grew (hifBase + 0x410) s.dev t.dev &&
        (let y := lndGet t.dev 4; y.phase == .running && y.pipe.pc == 0 && y.kern.rank == 1 && y.kern.nland == 2 && y.kern.ctx == 0x1235 && regS y.regs 2 == 1 && regS y.regs 3 == 2) &&
        lndGet t.dev 1 == lndGet s.dev 1),
      !([0, 4].all (landingIdle taken.dev)), idle (.kernelStart 3 5) taken, !(setRuns gone.dev [95]),
      answers (.kernelStart 3 5) gone (fun t => only [.hif, .cnt] gone t && (q5 t).run.isNone && (q5 t).fetched.isEmpty && entryOut gone t (q5 gone) 7 (descOf 0 64 (2 ^ 95)) ⟨3, 0, 0xFF, 0, 0⟩ &&
        grows [hifBase + 0x420] gone.dev t.dev),
      answers (.marker 3 5) (ring5 (wait (descOf 3 0 0))) (fun t => (q5 t).fetched.isEmpty && (q5 t).run.isNone && grows [hifBase + 0x420] s.dev t.dev &&
        entryOut (ring5 (wait (descOf 3 0 0))) t (wait (descOf 3 0 0)) 7 (descOf 3 0 0) ⟨0, 0, 0xFF, 0, 0⟩)] = true := by decide +kernel

theorem witness_HostRings_transfers :
    let x := descOf 1 4 0
    let y := descOf 2 4 0
    let moved (n : Nat) (t : State) : Bool := (q5 t).run.map (fun k => k.moved) == some n && (q5 t).fetched.isEmpty
    let run := ring5 (runs x 1)
    let failed := ring5 { runs x 1 with run := some { runOf x with moved := 1, failed := true } }
    all [(mayStart (ring5 (wait x)).dev 3 5 1).isSome && lLen x == 4, answers (.dmaToModule 3 5 (.data [1, 2, 3])) (ring5 (wait x)) (moved 3),
      (dmaRuns run.dev 3 5 1).isSome, answers (.dmaToModule 3 5 (.data [1, 2, 3, 4, 5])) run (fun t => only [.mem, .memc, .hif, .cnt] run t && moved 4 t && onlyRing run t),
      [Instr.dmaToModule 3 5 .error, .dmaToModule 3 5 .timeout, .hostCompletionTimeout 3 5].all (fun i => answers i run (fun t => (q5 t).run == some { runOf x with moved := 1, failed := true })),
      (dmaRuns (ring5 (runs y 0)).dev 3 5 2).isSome, answers (.dmaToHost 3 5) (ring5 (runs y 0)) (moved 4), (mayStart (ring5 (wait y)).dev 3 5 2).isSome,
      answers (.dmaToHost 3 5) (ring5 (wait y)) (moved 4), idle (.dmaComplete 3 5) (ring5 ringA), idle (.dmaComplete 3 5) run,
      [ring5 (runs x 4), failed].all (fun s => answers (.dmaComplete 3 5) s (fun t => only [.hif, .cnt] s t && (q5 t).run.isNone && grows [hifBase + 0x418, hifBase + 0x420] s.dev t.dev &&
        (match (q5 s).run with
        | some k => entryOut s t (q5 s) k.idx k.desc ⟨(runStatus k).1, (runStatus k).2, 0xFF, 0, 0⟩
        | none => false)))] = true := by decide +kernel

theorem witness_HostLink :
    let hifIs (g : Hif → Hif) (t : State) : Bool := only [.hif] sNic t && t.dev.hif == g sNic.dev.hif
    all [answers (.pcieLinkChange false 4 1 true) sNic (hifIs (fun h => { h with linkUp := false, speed := 0, width := 0, flit := false })),
      answers (.pcieLinkChange true 6 16 true) sNic (hifIs (fun h => { h with linkUp := true, speed := 6, width := 16, flit := true })), idle (.pcieLinkChange true 6 16 false) sNic,
      idle (.pcieLinkChange true 3 16 false) sNic, idle (.pcieLinkChange true 4 3 false) sNic, answers (.d3hot true) sNic (hifIs (fun h => { h with d3hot := true }))] = true := by decide +kernel

def wrote (off : Nat) (wide : Bool) (v : W64) (p : State → Bool) : Bool := answers (.registerWrite off wide v) sNic p
def errs (i : Instr) (s : State) (bit : Nat) : Bool := answers i s (fun t => only [.hif] s t && t.dev.hif.err.getLsbD bit)
def reads (off : Nat) (wide : Bool) (s : State) (data : List Byte) : Bool :=
  answers (.lowWordRead off wide) s (fun t => only [.hif] s t && t.dev.hif.out == [.completion data false])

theorem witness_HostRegisters :
    let e := { sNic with dev := { sNic.dev with hif := { sNic.dev.hif with err := 0x7F }, tim := { sNic.dev.tim with evt := 0x22 }, rst := { sNic.dev.rst with cause := 0x3FFF } } }
    let c := { sNic with dev := { sNic.dev with cnt := [(hifBase + 0x400, 0x1122334455667788)], hif := { sNic.dev.hif with latch := [(hifBase + 0x400, 0xAB)] } } }
    all [errs (.registerWrite 2 false 1) sNic 5 && errs (.registerWrite 4 true 1) sNic 5, answers (.registerWrite (hifBase + 4) false 0x21) e (fun t => t.dev.hif.err == 0x5E),
      answers (.registerWrite (timBase + 0xC) false 2) e (fun t => t.dev.tim.evt == 0x20), answers (.registerWrite rstBase false 1) e (fun t => t.dev.rst.cause == 0x3FFE),
      isCounter (hifBase + 0x400) && idle (.registerWrite (hifBase + 0x400) true 5) c, wrote (hifBase + 0x178) true 0x8000010FFFFFFFFF (fun t => t.dev.hif.win == [(15, 0x8000010F00000000)]),
      errs (.registerWrite (hifBase + 0x178) true 0x8000011000000000) sNic 0, errs (.lowWordRead 2 false) sNic 5, reg64 c.dev (hifBase + 0x400) == some 0x1122334455667788,
      reads (hifBase + 0x400) true c (leBytes 8 0x1122334455667788), reads (hifBase + 0x400) false c (leBytes 4 0x55667788), reads (hifBase + 0x404) false c (leBytes 4 0xAB),
      answers (.lowWordRead (hifBase + 0x400) false) c (fun t => spGet 0 t.dev.hif.latch (hifBase + 0x400) == 0x11223344), reg64 e.dev rstBase == none, reads rstBase false e (leBytes 4 ((reg32 e.dev rstBase).getD 0).toNat),
      errs (.bar0BadAccess 0 2 true) sNic 5 && errs (.bar0BadAccess 4 8 false) sNic 5, idle (.bar0BadAccess 4 4 true) sNic] = true := by decide +kernel

theorem witness_RingAndContextRegisters :
    let on := ring5 ringA
    let off := ring5 { ringA with cfg := 0x00100004, tail := 5, head := 5, prod := 5 }
    let old := nicD (fun n => { n with ctr := [(0, ⟨9, true⟩), (4095, ⟨8, true⟩)] })
    let clash (t : Nat) : State := healthD (fun h => { h with scrubbed := [(0x77, some (4, t))] }) { old with dev := { old.dev with tim := { old.dev.tim with now := 128000 } } }
    let fresh (t : Nat) : State := { (clash t) with dev := { (clash t).dev with nic := { (clash t).dev.nic with ctxCfg := [] } } }
    let word (id count : Nat) : W64 := BitVec.ofNat 64 ((ctxVal id 5 count).toNat / 2 ^ 192)
    let ctr := { sNic with dev := { sNic.dev with nic := { sNic.dev.nic with ctr := [(5, ⟨1, true⟩)] } } }
    all [errs (.lqCfgWrite 3 5 0x80100005) on 1, errs (.lqCfgWrite 4 5 0x80100004) on 1, errs (.lqCfgWrite 3 5 0x00100004) on 1,
      [0x80100003, 0x8010000D, 0x800F0004].all (fun v => errs (.lqCfgWrite 3 5 v) off 0), answers (.lqCfgWrite 3 5 0xF810000C) off (fun t => q5 t == { (q5 off) with cfg := 0x8010000C, tail := 0, head := 0, prod := 0 }),
      answers (.lqCfgWrite 3 5 0x07FF0004) off (fun t => q5 t == { (q5 off) with cfg := 0x07FF0004 }), errs (.ctxCfgWrite 3 0 0) sNic 1,
      answers (.ctxCfgWrite 4 0 0xFFFFFFFFFFFFFFFF) sNic (fun t => ctxCfg t.dev 4 == 0xFFFFFFFFFFFF0000 && ctxCfg t.dev 3 == ctxCfg sNic.dev 3),
      errs (.ctxCfgWrite 4 3 (word 0x77 1)) (fresh 1) 1, errs (.ctxCfgWrite 4 3 (word 0x77 4097)) (fresh 0) 0, errs (.ctxCfgWrite 4 3 (word 0x77 1)) (clash 0) 0,
      answers (.ctxCfgWrite 4 3 (word 0x77 4096)) (fresh 0) (fun t => only [.mem, .memc, .nic, .cnt] (fresh 0) t && ctxValid t.dev 4 && [0, 4095].all (fun n => ctrGet t.dev n == ⟨0, false⟩)),
      answers (.ctxCfgWrite 4 3 (word 0x77 1)) (fresh 0) (fun t => ctrGet t.dev 0 == ⟨0, false⟩ && ctrGet t.dev 4095 == ⟨8, true⟩),
      errs (.ctrWrite 5 1) sLive 1, ctrOwner ctr.dev 5 == some 3, errs (.ctrWrite 5 1) (ring5 { ringA with run := some (runOf 0) }) 1, untriggered ctr.dev 5,
      answers (.ctrWrite 5 0xFFFF000000000007) ctr (fun t => ctrGet t.dev 5 == ⟨7, true⟩)] = true := by decide +kernel

theorem witness_Bar2 :
    let w (v : W64) : State := { sNic with mem := ⟨[(0x010000000041, 9)], [], []⟩, dev := { sNic.dev with hif := { sNic.dev.hif with win := [(1, v)] } } }
    let s := w 0x8000010000000000
    let bad (i : Instr) (s : State) : Bool := answers i s (fun t => only [.hif, .cnt] s t && t.dev.hif.err.getLsbD 4 && grows [hifBase + 0x438] s.dev t.dev)
    all [bar2Reaches s.dev 0x100000040 2, bad (.bar2Write 0x100000040 [1, 2] [true, true] false) (w 0x0000010000000000), bad (.bar2Read 0x1000000000 4) s, bad (.bar2Read 0 4) s,
      answers (.bar2Write 0x100000040 [1, 2, 3] [true, false, true] false) s (fun t => only [.mem, .memc, .cnt] s t && t.mem.bytes == [(0x010000000040, 1), (0x010000000041, 9), (0x010000000042, 3)]),
      (granAt s 0x010000000040).1 == .ok, answers (.bar2Read 0x100000040 2) s (fun t => t.dev.hif.out == [.completion [0, 9] false]),
      let p := { s with mem := { s.mem with poison := [0x010000000040 / 64] } }
      (granAt p 0x010000000040).1 != .ok && answers (.bar2Read 0x100000040 2) p (fun t => (t.dev.hif.out.map (fun o => match o with
        | .completion _ b => b
        | _ => false)) == [true])] = true := by decide +kernel

/-! ### Commands that no sender can form, one for each check, beside commands that meet it -/

def wfUnit : UnitIn := { unit1 with crc := 0 }
def wfFrame : Frame := readF 0x600001 sMg
def mOps0 : MOps := ⟨0, 0, 0, 0, 0, false, 0, 0, 0, 0⟩
def xOps0 : XOps := ⟨0, 0, 0, 0, 0, 0, false, false, 0, 0⟩
def lim0 : LimitIn := { limIn with ballastW := 100 }

/-- A matrix or move operation in the second slot. -/
theorem test_wf_single : all [(Instr.mload 3 c0 k0 mOps0).wf, (Instr.xctr 3 c0 k0 xOps0).wf, !(k1.single),
    [Instr.mload 3 c0 k1 mOps0, .mmac 3 c0 k1 mOps0, .mzero 3 c0 k1 mOps0, .mstore 3 c0 k1 mOps0, .xcopy 3 c0 k1 xOps0, .xfill 3 c0 k1 xOps0,
      .xunpack 3 c0 k1 xOps0, .xstream 3 c0 k1 xOps0, .xnic 3 c0 k1 xOps0, .xtrig 3 c0 k1 xOps0, .xtopk 3 c0 k1 xOps0, .xctr 3 c0 k1 xOps0].all (fun i => !i.wf)] = true := by decide +kernel

/-- A cell slot whose header is that of a link slot, a slot too few, codewords too few or too many, a symbol too many. -/
theorem test_wf_unit : all [(Instr.unitReceive 7 wfUnit).wf, !((USlot.cell { cellX 1 with dst := 0xFFF }).wf), (USlot.link 1 0 0).wf,
    [{ wfUnit with slots := .cell { cellX 1 with dst := 0xFFF } :: wfUnit.slots.drop 1 }, { wfUnit with slots := wfUnit.slots.drop 1 },
      { wfUnit with corr := [0, 0, 0] }, { wfUnit with uncorr := [false, false, false, false, true] }, { wfUnit with corr := [0, 16, 0, 0] }].all (fun u => !((Instr.unitReceive 7 u).wf))] = true := by decide +kernel

/-- A body too long for a frame, and a ninth request waiting. -/
theorem test_wf_frame : all [wfFrame.wf, { wfFrame with body := List.replicate 1460 0, queued := 8 }.wf,
    [{ wfFrame with body := List.replicate 1461 0 }, { wfFrame with queued := 9 }].all (fun f =>
      [Instr.acceptBackwardStep f, .portRetrain f, .laneUnretire f, .portEnable f, .sensingClear f, .pplW f, .ffMhz f, .resetSystem f, .resetCore f, .scrubContext f,
        .admitModule f, .portAdmit f, .routeTable f, .routePatch f, .ilvApply f, .defectRemove f, .oosClear f, .quiesceRequest f, .maintRequest f, .resumeRequest f,
        .healthConfirm f, .lsStart f, .lsStop f, .kmdRead f, .kmdWrite f, .readBlock f, .writeBlock f, .heartbeat f].all (fun i => !i.wf))] = true := by decide +kernel

/-- A slot's meter missing, a duty past its whole, more ballast than draw. -/
theorem test_wf_meters : all [(Instr.powerWindowBoundary ⟨700, List.replicate 32 0, 0, 0⟩).wf, !((Instr.powerWindowBoundary ⟨700, List.replicate 31 0, 0, 0⟩).wf),
    (Instr.limiterInterval lim0).wf, [{ lim0 with dutyW := 17 }, { lim0 with dutyE := 17 }, { lim0 with ballastW := 101 }].all (fun x => !((Instr.limiterInterval x).wf))] = true := by decide +kernel

/-- A cause, a landing, a channel and a gallery that do not exist. -/
theorem test_wf_phase : all [(Instr.startPhaseDone { phaseOk with fail := some 10 }).wf, (Instr.coreResetDone [103]).wf, !((Instr.coreResetDone [104]).wf),
    [{ phaseOk with fail := some 0 }, { phaseOk with fail := some 11 }, { phaseOk with badLandings := [104] }, { phaseOk with badChannels := [128] },
      { phaseOk with badGalleries := [12] }].all (fun x => !((Instr.startPhaseDone x).wf))] = true := by decide +kernel

/-- A link that R532 does not list: its speed, its mode, its width. -/
theorem test_wf_link : all [(Instr.pcieLinkChange true 6 16 true).wf, (Instr.pcieLinkChange false 1 0 true).wf, !((Instr.pcieLinkChange true 3 16 false).wf),
    !((Instr.pcieLinkChange true 6 16 false).wf), !((Instr.pcieLinkChange true 4 3 false).wf)] = true := by decide +kernel

/-- Host data, accesses and doorbells of a wrong size or alignment. -/
theorem test_wf_host : all [(Instr.launchFetchDone 3 5 (.data (List.replicate 128 0))).wf, !((Instr.launchFetchDone 3 5 (.data (List.replicate 129 0))).wf), (Instr.launchFetchDone 3 5 .timeout).wf,
    !((Instr.dmaToModule 3 5 (.data (List.replicate 4097 0))).wf), (Instr.registerWrite 4 false 0).wf, !((Instr.registerWrite 4 true 0).wf), !((Instr.lowWordRead 2 false).wf),
    !((Instr.bar0BadAccess 8 8 true).wf), (Instr.bar0BadAccess 8 2 true).wf, (Instr.doorbell 0xFFFFFC 4 0).wf, !((Instr.doorbell 0 0 0).wf), !((Instr.doorbell 0 5 0).wf),
    !((Instr.doorbell 0xFFFFFD 4 0).wf), (Instr.bar2Write 0 [1] [true] false).wf, !((Instr.bar2Write 0 [1] [] false).wf), !((Instr.bar2Write 0 [] [] false).wf),
    (Instr.bar2Read 0 4096).wf, !((Instr.bar2Read 0 4097).wf), !((Instr.bar2Read 0 0).wf)] = true := by decide +kernel

/-- Channels, stores, sensors, rails and addresses past the last. -/
theorem test_wf_numbers : all [(Instr.patrolScrub (2 ^ 48 - 1) .clean).wf, !((Instr.patrolScrub (2 ^ 48) .clean).wf), (Instr.storeGate 115).wf, !((Instr.storeGate 116).wf), !((Instr.storeWake 116).wf),
    (Instr.powerDownEntry 191).wf, !((Instr.powerDownEntry 192).wf), !((Instr.selfRefreshEntry 192).wf), !((Instr.selfRefreshExit 192).wf), (Instr.junctionSample 87 none).wf,
    !((Instr.junctionSample 88 none).wf), (Instr.railTimeout 2).wf, !((Instr.railTimeout 0).wf), !((Instr.railTimeout 3).wf), (Instr.marker 3 5).wf] = true := by decide +kernel

end Sys2Proof.Tests
end

section
/-! The rack time unit's part of the state and the pin RT_PULSE (R41 to R43): what an event or a change of the unit
leaves alone, what an edge does in each lock state, and the statement about both. -/

namespace Sys2Proof

open Machine

/-! ### The parts that the rack time unit and its events reach -/

/-- Of the device only the rack time unit, the events and frames, the host interface and the counters change. -/
def TimeFrame (d e : Dev) : Prop := e = { d with tim := e.tim, kmd := e.kmd, hif := e.hif, cnt := e.cnt }

theorem timeFrame_trans {d e f : Dev} (h1 : TimeFrame d e) (h2 : TimeFrame e f) : TimeFrame d f := by
  unfold TimeFrame at *
  rw [h1] at h2
  exact h2

theorem timeFrame_tim (d : Dev) (t : Tim) : TimeFrame d { d with tim := t } := rfl

theorem timeFrame_cntInc (off : Nat) (d : Dev) : TimeFrame d (cntInc off d) := rfl

theorem timeFrame_fireVec (v : Nat) (d : Dev) : TimeFrame d (fireVec v d) := by
  unfold fireVec
  split <;> rfl

theorem timeFrame_timEvtBit (b : Nat) (d : Dev) : TimeFrame d (timEvtBit b d) := by
  unfold timEvtBit
  split
  · rfl
  · exact timeFrame_trans (timeFrame_tim d _) (timeFrame_fireVec 1 _)

theorem timeFrame_sendEvents (recs : List EvRec) (d : Dev) : TimeFrame d (sendEvents recs d) := by
  unfold sendEvents
  split <;> rfl

theorem timeFrame_emit (code unit : Nat) (detail : W64) (d : Dev) : TimeFrame d (emit code unit detail d) := by
  unfold emit
  split
  · rfl
  · dsimp only
    split
    · exact timeFrame_sendEvents _ _
    · rfl

theorem only_of_timeFrame {s : State} {e : Dev} (h : TimeFrame s.dev e) :
    Only [.tim, .kmd, .hif, .cnt] s { s with dev := e } := by
  unfold Only
  exact congrArg (fun x => ({ s with dev := x } : State)) h

/-- Within that frame the lock state and the count stay as they are. -/
def LockKept (d e : Dev) : Prop := TimeFrame d e ∧ e.tim.state = d.tim.state ∧ e.tim.count = d.tim.count

theorem lockKept_trans {d e f : Dev} (h1 : LockKept d e) (h2 : LockKept e f) : LockKept d f := by
  obtain ⟨hframe, hstate, hcount⟩ := h1
  obtain ⟨hframe', hstate', hcount'⟩ := h2
  exact ⟨timeFrame_trans hframe hframe', hstate'.trans hstate, hcount'.trans hcount⟩

theorem only_of_lockKept {s : State} {e : Dev} (h : LockKept s.dev e) :
    Only [.tim, .kmd, .hif, .cnt] s { s with dev := e } ∧ e.tim.state = s.dev.tim.state ∧
      e.tim.count = s.dev.tim.count :=
  ⟨only_of_timeFrame h.1, h.2⟩

/-! ### Counters and event bits -/

theorem cntGet_cntInc_same (off : Nat) (d : Dev) : cntGet (cntInc off d) off = bumped (cntGet d off) := by
  rw [cntGet_cntInc, if_pos rfl, satAdd_bumped]

/-- An event counts nothing but events lost (R504). -/
theorem cntGet_emit (code unit : Nat) (detail : W64) (d : Dev) {k : Nat} (hk : k ≠ objCnt 0x103004) :
    cntGet (emit code unit detail d) k = cntGet d k := by
  unfold emit
  split
  · rfl
  · dsimp only
    split
    · exact cntGet_congr (sendEvents_cnt _ _) k
    · rw [cntGet_cntInc, if_neg hk]
      rfl

theorem getLsbD_setField_one {w : Nat} (x : BitVec w) {b : Nat} (hb : b < w) : (setField x b 1 1).getLsbD b = true := by
  simp only [setField, BitVec.getLsbD_or, BitVec.getLsbD_ofNat]
  simp [hb]

/-- A bit of TIM_EVT set leaves the rest of the rack time unit alone. -/
theorem timEvtBit_tim (b : Nat) (d : Dev) : (timEvtBit b d).tim = { d.tim with evt := (timEvtBit b d).tim.evt } := by
  unfold timEvtBit
  split
  · rfl
  · rw [fireVec_tim]

theorem timEvtBit_evt {b : Nat} (hb : b < 8) (d : Dev) : (timEvtBit b d).tim.evt.getLsbD b = true := by
  unfold timEvtBit
  split
  · assumption
  · rw [fireVec_tim]
    exact getLsbD_setField_one _ hb

/-! ### A change of the rack time unit that raises no bit of TIM_EVT -/

/-- The change keeps the flags and the master whose changes set a bit of TIM_EVT (R58). -/
def KeepsSignals (f : Tim → Tim) (t : Tim) : Prop :=
  (f t).expressWithdrawn = t.expressWithdrawn ∧ (f t).backwardHold = t.backwardHold ∧ (f t).master = t.master

section
variable {f : Tim → Tim} {d : Dev}

/-- Such a change has no effect beside itself but the event of a changed flag of TIM_STATUS (R48). -/
theorem timChange_of_keepsSignals (h : KeepsSignals f d.tim) :
    timChange f d =
      if timFlags (f d.tim) = timFlags d.tim then { d with tim := f d.tim }
      else emit 0x3002 0 (BitVec.ofNat 64 (fieldN (timStatus (f d.tim)) 15 0)) { d with tim := f d.tim } := by
  obtain ⟨hexp, hback, hmaster⟩ := h
  simp [timChange, hexp, hback, hmaster]

theorem timChange_tim (h : KeepsSignals f d.tim) : (timChange f d).tim = f d.tim := by
  rw [timChange_of_keepsSignals h]
  split
  · rfl
  · rw [emit_tim]

theorem timeFrame_timChange (h : KeepsSignals f d.tim) : TimeFrame d (timChange f d) := by
  rw [timChange_of_keepsSignals h]
  split
  · exact timeFrame_tim d _
  · exact timeFrame_trans (timeFrame_tim d _) (timeFrame_emit _ _ _ _)

theorem lockKept_timChange (h : KeepsSignals f d.tim) (hstate : (f d.tim).state = d.tim.state)
    (hcount : (f d.tim).count = d.tim.count) : LockKept d (timChange f d) :=
  ⟨timeFrame_timChange h, by rw [timChange_tim h, hstate], by rw [timChange_tim h, hcount]⟩

theorem cntGet_timChange (h : KeepsSignals f d.tim) {k : Nat} (hk : k ≠ objCnt 0x103004) :
    cntGet (timChange f d) k = cntGet d k := by
  rw [timChange_of_keepsSignals h]
  split
  · rfl
  · exact cntGet_emit _ _ _ _ hk

end

/-! ### What an edge and a static pulse do (R41 to R43) -/

/-- An edge has been seen: the pulse is not absent (R43). -/
def edgeSeen (t : Tim) : Tim := { t with pulseAbsent := false, pulseLevel := true }

/-- A valid edge in HOLDOVER: the distance is slewed out, the bound is held (R42). -/
def pulseTaken (off : Int) (t : Tim) : Tim :=
  { t with slew := off, slewAcc := 0, lastPulse := some t.now, pulseHeld := true }

/-- The hold ends at an edge out of tolerance (log entry 77). -/
def holdEnded (t : Tim) : Tim := { t with pulseHeld := false }

/-- A static pulse: absent, and nothing is held (R43). -/
def pulseGone (t : Tim) : Tim := { t with pulseAbsent := true, pulseHeld := false }

/-- An edge out of tolerance has been seen: counted in rt_pulse_mismatch_cnt, bit 5 of TIM_EVT set (R41, R58). -/
def edgeMissed (d : Dev) : Dev := timEvtBit 5 (cntInc (objCnt 0x303004) { d with tim := edgeSeen d.tim })

theorem keepsSignals_pulseTaken (off : Int) (t : Tim) : KeepsSignals (pulseTaken off) t := ⟨rfl, rfl, rfl⟩

theorem keepsSignals_holdEnded (t : Tim) : KeepsSignals holdEnded t := ⟨rfl, rfl, rfl⟩

theorem keepsSignals_pulseGone (t : Tim) : KeepsSignals pulseGone t := ⟨rfl, rfl, rfl⟩

theorem lockKept_edgeSeen (d : Dev) : LockKept d { d with tim := edgeSeen d.tim } := ⟨rfl, rfl, rfl⟩

theorem edgeMissed_tim (d : Dev) : (edgeMissed d).tim = { edgeSeen d.tim with evt := (edgeMissed d).tim.evt } :=
  timEvtBit_tim 5 _

theorem lockKept_edgeMissed (d : Dev) : LockKept d (edgeMissed d) :=
  ⟨timeFrame_trans (timeFrame_trans (timeFrame_tim d _) (timeFrame_cntInc _ _)) (timeFrame_timEvtBit 5 _),
    (congrArg Tim.state (edgeMissed_tim d) :), (congrArg Tim.count (edgeMissed_tim d) :)⟩

theorem edgeMissed_evt (d : Dev) : (edgeMissed d).tim.evt.getLsbD 5 = true := timEvtBit_evt (by decide) _

theorem cntGet_edgeMissed (d : Dev) :
    cntGet (edgeMissed d) (objCnt 0x303004) = bumped (cntGet d (objCnt 0x303004)) := by
  rw [edgeMissed, cntGet_congr (timEvtBit_cnt _ _), cntGet_cntInc_same]
  rfl

theorem pulseEdge_ignored {d : Dev} (h : objGet d 0x301005 = 0 ∨ extestOn d = true) : pulseEdge d = d := if_pos h

section
variable {d : Dev} (hen : objGet d 0x301005 ≠ 0) (hex : extestOn d = false)
include hen hex

theorem pulseEdge_locked_near (hst : d.tim.state = .locked) (hnear : (pulseOffset d.tim).natAbs ≤ 64) :
    pulseEdge d = { d with tim := edgeSeen d.tim } := by
  simp [pulseEdge, hen, hex, hst, hnear, edgeSeen]

theorem pulseEdge_locked_far (hst : d.tim.state = .locked) (hfar : 64 < (pulseOffset d.tim).natAbs) :
    pulseEdge d = edgeMissed d := by
  simp [pulseEdge, hen, hex, hst, Nat.not_le.mpr hfar, edgeMissed, edgeSeen]

theorem pulseEdge_holdover_near (hst : d.tim.state = .holdover) (hnear : (pulseOffset d.tim).natAbs ≤ 64) :
    pulseEdge d = timChange (pulseTaken (pulseOffset d.tim)) { d with tim := edgeSeen d.tim } := by
  simp [pulseEdge, hen, hex, hst, hnear, edgeSeen, funext (pulseTaken.eq_1 _)]

theorem pulseEdge_holdover_far (hst : d.tim.state = .holdover) (hfar : 64 < (pulseOffset d.tim).natAbs) :
    pulseEdge d = timChange holdEnded (edgeMissed d) := by
  simp [pulseEdge, hen, hex, hst, Nat.not_le.mpr hfar, edgeMissed, edgeSeen, funext holdEnded.eq_1]

end

theorem pulseAbsent_eq (d : Dev) : pulseAbsent d = timChange pulseGone d := rfl

/-! ### The two commands -/

theorem exec_rtPulseEdge {s : State} (hub : hubUp s.dev = true) :
    exec .rtPulseEdge s = .next { s with dev := pulseEdge s.dev } := by
  simp [exec, execRtPulseEdge, timeEvent, hub]

theorem completes_rtPulseEdge {s : State} {e : Dev} {P : State → Prop} (hub : hubUp s.dev = true)
    (he : pulseEdge s.dev = e) (h : P { s with dev := e }) : Completes .rtPulseEdge s P :=
  ⟨_, he ▸ exec_rtPulseEdge hub, h⟩

theorem exec_rtPulseEdge_ignored {s : State} (h : objGet s.dev 0x301005 = 0 ∨ extestOn s.dev = true) :
    exec .rtPulseEdge s = .next s := by
  simp [exec, execRtPulseEdge, timeEvent, pulseEdge_ignored h]

theorem exec_rtPulseAbsent {s : State} (hub : hubUp s.dev = true) :
    exec .rtPulseAbsent s = .next { s with dev := timChange pulseGone s.dev } := by
  simp [exec, execRtPulseAbsent, timeEvent, hub, pulseAbsent_eq]

/-- Settles O34, by the lock state and the distance of the edge: in each case `pulseEdge` is one change of the rack time
unit, which keeps the lock state, the count and the flags with a bit of their own in TIM_EVT. -/
theorem pulses : Obligations.Pulses := by
  intro s hub u m off missed frame
  refine ⟨fun h => exec_rtPulseEdge_ignored (.inl h), fun hen hex hnear => ⟨fun hst => ?locked_near, fun hst => ?held⟩,
    fun hen hex hfar => ⟨fun hst => ?locked_far, fun hst => ?hold_ended⟩, fun h => exec_rtPulseEdge_ignored (.inr h),
    ?absent⟩
  case locked_near =>
    exact completes_rtPulseEdge hub (pulseEdge_locked_near hen hex hst hnear) ⟨rfl, rfl, rfl, rfl, rfl⟩
  case held =>
    have hkeep := keepsSignals_pulseTaken off (edgeSeen u)
    have hlock := lockKept_trans (lockKept_edgeSeen s.dev) (lockKept_timChange hkeep rfl rfl)
    have htim := timChange_tim (d := { s.dev with tim := edgeSeen u }) hkeep
    exact completes_rtPulseEdge hub (pulseEdge_holdover_near hen hex hst hnear) ⟨only_of_lockKept hlock,
      (congrArg Tim.pulseHeld htim :), (congrArg Tim.slew htim :), (congrArg Tim.lastPulse htim :)⟩
  case locked_far =>
    have hslew := congrArg Tim.slew (edgeMissed_tim s.dev)
    exact completes_rtPulseEdge hub (pulseEdge_locked_far hen hex hst hfar)
      ⟨only_of_lockKept (lockKept_edgeMissed s.dev), ⟨cntGet_edgeMissed s.dev, edgeMissed_evt s.dev⟩, hslew⟩
  case hold_ended =>
    have hkeep := keepsSignals_holdEnded (edgeMissed s.dev).tim
    have hlock := lockKept_trans (lockKept_edgeMissed s.dev) (lockKept_timChange hkeep rfl rfl)
    have htim := timChange_tim hkeep
    have hcnt := (cntGet_timChange hkeep (by decide)).trans (cntGet_edgeMissed s.dev)
    have hevt := (congrArg (fun t => t.evt.getLsbD 5) htim).trans (edgeMissed_evt s.dev)
    exact completes_rtPulseEdge hub (pulseEdge_holdover_far hen hex hst hfar)
      ⟨only_of_lockKept hlock, ⟨hcnt, hevt⟩, (congrArg Tim.pulseHeld htim :)⟩
  case absent =>
    have hkeep := keepsSignals_pulseGone u
    have htim := timChange_tim hkeep
    exact ⟨_, exec_rtPulseAbsent hub, only_of_lockKept (lockKept_timChange hkeep rfl rfl),
      (congrArg Tim.pulseAbsent htim :), (congrArg Tim.pulseHeld htim :), (congrArg Tim.slew htim :)⟩

end Sys2Proof
end

section
/-! The counters of the landings (R88) and the reset block, in `0x400000` to `0x500000` of BAR0: what memory accesses,
translations, cells, descriptors, counter updates and lock-step records leave alone. -/

namespace Sys2Proof.Machine

/-- From `d` to `e` every counter in the landings' blocks keeps its value, and so does the reset block. -/
def LandCountsKept (d e : Dev) : Prop :=
  e.rst = d.rst ∧ ∀ k, 0x400000 ≤ k → k < 0x500000 → cntGet e k = cntGet d k

namespace LandCountsKept

variable {d e f : Dev} {s : State}

theorem refl (d : Dev) : LandCountsKept d d := ⟨rfl, fun _ _ _ => rfl⟩

theorem trans (h1 : LandCountsKept d e) (h2 : LandCountsKept e f) : LandCountsKept d f :=
  ⟨h2.1.trans h1.1, fun k hl hu => (h2.2 k hl hu).trans (h1.2 k hl hu)⟩

theorem same (h : LandCountsKept d e) (hr : f.rst = e.rst) (hc : f.cnt = e.cnt) : LandCountsKept d f :=
  ⟨hr.trans h.1, fun k hl hu => (cntGet_congr hc k).trans (h.2 k hl hu)⟩

/-! ### Counters, events and cells -/

theorem cntAdd (h : LandCountsKept d e) {off : Nat} (ho : off < 0x400000 ∨ 0x500000 ≤ off) (n : Nat) :
    LandCountsKept d (cntAdd off n e) := by
  refine ⟨h.1, fun k hl hu => ?_⟩
  rw [cntGet_cntAdd, if_neg (by omega)]
  exact h.2 k hl hu

theorem cntInc (h : LandCountsKept d e) {off : Nat} (ho : off < 0x400000 ∨ 0x500000 ≤ off) :
    LandCountsKept d (cntInc off e) := h.cntAdd ho 1

theorem cntIf (h : LandCountsKept d e) {off : Nat} (ho : off < 0x400000 ∨ 0x500000 ≤ off) (b : Bool) :
    LandCountsKept d (cntIf b off e) := by
  cases b
  · exact h
  · exact h.cntInc ho

theorem emit (h : LandCountsKept d e) (code unit : Nat) (detail : W64) : LandCountsKept d (emit code unit detail e) :=
  ⟨(emit_rst code unit detail e).trans h.1, fun k hl hu =>
    (cntGet_emit code unit detail e (by unfold objCnt; omega)).trans (h.2 k hl hu)⟩

theorem sendOut (h : LandCountsKept d e) (o : OutCell) : LandCountsKept d (sendOut o e) := by
  unfold Machine.sendOut
  repeat' split
  all_goals exact h

theorem expRelease (h : LandCountsKept d e) (o : OutCell) : LandCountsKept d (expRelease o e) := by
  unfold Machine.expRelease
  refine sendOut ?_ o
  exact h.same rfl rfl

theorem expSend (h : LandCountsKept d e) (o : OutCell) : LandCountsKept d (expSend o e) := by
  unfold Machine.expSend
  split
  · exact h.expRelease o
  · exact cntInc (h.same rfl rfl) (.inl (by decide))

theorem takeSeq (h : LandCountsKept d e) (dst ctx gen : Nat) : LandCountsKept d (takeSeq dst ctx gen e).2 := by
  unfold Machine.takeSeq
  split <;> exact h

theorem sendCell (h : LandCountsKept d e) (c : Cell) (owner : CellOwner) (place : AnsPlace) :
    LandCountsKept d (sendCell c owner place e) := by
  have hseq : LandCountsKept d
      (if opNumbered c.op.toNat then Machine.takeSeq c.dst.toNat c.ctx.toNat c.gen.toNat e else (0, e)).2 := by
    split
    · exact h.takeSeq _ _ _
    · exact h
  unfold Machine.sendCell
  generalize (if opNumbered c.op.toNat then Machine.takeSeq c.dst.toNat c.ctx.toNat c.gen.toNat e else (0, e)) = q
    at hseq
  dsimp only
  split
  · exact hseq.expSend _
  · exact hseq.sendOut _

theorem errorNotice (h : LandCountsKept d e) (slot cls dst rctr : Nat) :
    LandCountsKept d (errorNotice slot cls dst rctr e) :=
  (h.sendCell _ _ _).cntInc (.inl (by decide))

theorem postDesc (h : LandCountsKept d e) (q : DqEnt) : LandCountsKept d (postDesc q e) :=
  cntInc (h.same rfl rfl) (.inl (by decide))

/-! ### Reads, writes and translations -/

theorem touch (h : LandCountsKept d e) (pa : Nat) : LandCountsKept d (touch pa e) := by
  unfold Machine.touch
  split
  · exact h
  · split
    · exact (h.cntIf (.inl (by decide)) _).same rfl rfl
    · exact h

theorem readGran (h : LandCountsKept d s.dev) (pa : Nat) : LandCountsKept d (readGran s pa).2.2.dev := by
  unfold Machine.readGran
  dsimp only
  split
  · exact (h.touch pa).cntInc (.inl (by decide))
  · exact (h.touch pa).cntInc (.inl (by decide))
  · exact h.touch pa

theorem readRange (h : LandCountsKept d s.dev) (pa n : Nat) : LandCountsKept d (readRange s pa n).2.dev := by
  unfold Machine.readRange
  exact foldl_keeps (P := fun a : RangeRead × State => LandCountsKept d a.2.dev)
    (fun a i ha => ha.readGran (64 * (pa / 64 + i))) _ _ h

theorem walk : ∀ (n table va : Nat) {s : State}, LandCountsKept d s.dev → LandCountsKept d (walk n table va s).2.dev
  | 0, _, _, _, h => h
  | n + 1, table, va, s, h => by
    have hr := h.readRange (table + 8 * (va / levelSize n % 512)) 8
    unfold Machine.walk
    dsimp only
    split
    · exact hr
    · split
      · exact hr
      · exact hr
      · exact walk n _ va hr

theorem leafFor (h : LandCountsKept d s.dev) (slot va : Nat) : LandCountsKept d (leafFor s slot va).2.dev := by
  have hc : LandCountsKept d (Machine.cntInc (memBase + 0x470) s.dev) := h.cntInc (.inl (by decide))
  unfold Machine.leafFor
  split
  · exact h
  · split
    · exact h
    · dsimp only
      split
      · exact hc
      · have hw := walk 4 (fieldN (xltRoot s.dev slot) 47 12 * 4096) va
          (s := { s with dev := Machine.cntInc (memBase + 0x470) s.dev }) hc
        split <;> exact hw

theorem xlate1 (h : LandCountsKept d s.dev) (slot va : Nat) (wr : Bool) :
    LandCountsKept d (xlate1 s slot va wr).2.dev := by
  have hl := h.leafFor slot va
  unfold Machine.xlate1
  dsimp only
  repeat' split
  all_goals exact hl

theorem xlateRest : ∀ (n : Nat) {s : State} (slot va pa len : Nat) (wr : Bool) (c : Nat), LandCountsKept d s.dev →
    LandCountsKept d (xlateRest n s slot va pa len wr c).2.dev
  | 0, _, _, _, _, _, _, _, h => h
  | n + 1, s, slot, va, pa, len, wr, c, h => by
    have h1 := h.xlate1 slot va wr
    unfold Machine.xlateRest
    split
    · exact h
    · dsimp only
      split
      · exact h1
      · split
        · exact h1
        · exact xlateRest n _ _ _ _ wr _ h1

theorem xlateRange (h : LandCountsKept d s.dev) (slot va len : Nat) (wr : Bool) :
    LandCountsKept d (xlateRange s slot va len wr).2.dev := by
  have h1 := h.xlate1 slot va wr
  unfold Machine.xlateRange
  dsimp only
  split
  · exact h1
  · have h2 (n va pa len : Nat) := xlateRest n slot va pa len wr 0 h1
    repeat' split
    all_goals exact h2 _ _ _ _

theorem accountXl (h : LandCountsKept d s.dev) (slot : Nat) (xl : List (Nat × Nat × Bool)) :
    LandCountsKept d (accountXl slot xl s).dev :=
  foldl_keeps (P := fun s : State => LandCountsKept d s.dev) (fun _ p hs => hs.xlateRange slot p.1 p.2.1 p.2.2) xl s h

theorem writeGranAt (h : LandCountsKept d s.dev) (pa : Nat) (bs : List (Option Byte)) (poison : Bool)
    (slot : Option Nat) : LandCountsKept d (writeGranAt pa bs poison slot s).dev := by
  unfold Machine.writeGranAt
  split
  · exact h
  · dsimp only
    split
    · exact (h.touch pa).cntInc (.inl (by decide))
    · split <;> exact h.touch pa

theorem writeBytes (h : LandCountsKept d s.dev) (pa : Nat) (bytes : List (Option Byte)) (poison : Bool)
    (slot : Option Nat) : LandCountsKept d (writeBytes pa bytes poison slot s).dev := by
  refine foldl_keeps (P := fun s : State => LandCountsKept d s.dev) (fun b i hb => ?_) _ s h
  dsimp only
  split
  · exact hb.writeGranAt _ _ _ _
  · exact hb

/-! ### Completion records, counters and triggers -/

theorem writeRecord (h : LandCountsKept d s.dev) (n : Nat) (r : BitVec 256) :
    LandCountsKept d (writeRecord n r s).dev :=
  same (h.writeBytes _ _ _ _) rfl rfl

theorem cqRoom (h : LandCountsKept d s.dev) (n : Nat) : LandCountsKept d (cqRoom s n).2.dev := h.readRange _ _

theorem postRecord (h : LandCountsKept d s.dev) (n : Nat) (r : HeldRec) :
    LandCountsKept d (postRecord n r s).1.dev := by
  unfold Machine.postRecord
  dsimp only
  split
  · exact (h.cqRoom n).writeRecord n _
  · exact h.cqRoom n

theorem complete (h : LandCountsKept d s.dev) (x : Done) : LandCountsKept d (complete x s).1.dev :=
  postRecord (s := { s with dev := Machine.cntIf (statusErr x.status) (nicBase + 0x908) s.dev })
    (h.cntIf (.inl (by decide)) _) _ _

theorem fireTrig (h : LandCountsKept d s.dev) (t : TrigEnt) (err : Bool) :
    LandCountsKept d (fireTrig t err s).1.dev := by
  have hf : LandCountsKept d (Machine.cntInc (nicBase + 0x938)
      { s.dev with nic := { s.dev.nic with trig := s.dev.nic.trig.filter (fun u => u != t) } }) :=
    cntInc (h.same rfl rfl) (.inl (by decide))
  have he := hf.cntInc (off := nicBase + 0x940) (.inl (by decide))
  unfold Machine.fireTrig
  dsimp only
  split
  · refine complete ?_ _
    dsimp only
    split
    · exact he.errorNotice _ _ _ _
    · exact he
  · exact hf.postDesc _

theorem fireAll (err : Bool) : ∀ (ts : List TrigEnt) {s : State}, LandCountsKept d s.dev →
    LandCountsKept d (fireAll err ts s).1.dev
  | [], _, h => h
  | t :: ts, _, h => fireAll err ts (h.fireTrig t err)

theorem ctrWork : ∀ (n : Nat) (us : List CtrUpd) {s : State}, LandCountsKept d s.dev →
    LandCountsKept d (ctrWork n us s).dev
  | 0, _, _, h => h
  | _ + 1, [], _, h => h
  | n + 1, u :: us, s, h => by
    unfold Machine.ctrWork
    refine ctrWork n _ (fireAll _ _ ?_)
    refine cntIf ?_ (.inl (by decide)) _
    exact h.same rfl rfl

theorem ctrSet (h : LandCountsKept d s.dev) (c : Nat) (v : Ctr) : LandCountsKept d (ctrSet c v s).dev := by
  unfold Machine.ctrSet Machine.ctrUpdates
  exact ctrWork _ _ (fireAll _ _ (h.same rfl rfl))

/-! ### Lock-step records -/

theorem lsSend (h : LandCountsKept d e) (rec : List Byte) : LandCountsKept d (lsSend rec e) := by
  unfold Machine.lsSend
  split
  · exact h.sendCell _ _ _
  · exact h.cntInc (.inl (by decide))

theorem lsSendFreeze (h : LandCountsKept d e) : LandCountsKept d (lsSendFreeze e) := by
  unfold Machine.lsSendFreeze
  dsimp only
  repeat' split
  · exact h.cntInc (.inl (by decide))
  · exact h.expRelease _
  · exact cntInc (h.same rfl rfl) (.inl (by decide))

theorem lsFreeze (h : LandCountsKept d e) (cause : Nat) (detect : Bool) : LandCountsKept d (lsFreeze cause detect e) := by
  unfold Machine.lsFreeze
  refine emit ?_ _ _ _
  exact h.same rfl rfl

theorem lsMismatch (h : LandCountsKept d e) (own theirs : LsRec) : LandCountsKept d (lsMismatch own theirs e) := by
  unfold Machine.lsMismatch
  refine lsFreeze ?_ _ _
  exact h.lsSendFreeze.same rfl rfl

theorem lsMatch : ∀ (ms : List LsRec) {e : Dev}, LandCountsKept d e → LandCountsKept d (lsMatch ms e)
  | [], _, h => h
  | m :: t, e, h => by
    unfold Machine.lsMatch
    split
    · exact lsMatch t h
    · dsimp only
      split
      · refine lsMatch t (cntInc (h.same rfl rfl) (.inl ?_))
        split <;> decide
      · refine lsMismatch ?_ _ _
        exact h.same rfl rfl

theorem lsPost (h : LandCountsKept d e) (r : LsRec) : LandCountsKept d (lsPost r e) := by
  unfold Machine.lsPost
  split
  · exact lsMatch [r] ((h.lsSend _).same rfl rfl)
  · exact h

theorem lsWrote (h : LandCountsKept d e) (l slot va : Nat) (bytes : List (Option Byte)) :
    LandCountsKept d (lsWrote l slot va bytes e) := by
  unfold Machine.lsWrote Machine.runMod
  repeat' split
  all_goals exact h

end LandCountsKept

end Sys2Proof.Machine
end

section
/-! The effects of the slots of a bundle, and the operations they start, leave the landings' counters alone (R82, R89). -/

namespace Sys2Proof.Machine

/-! ### The effects of a bundle -/

/-- A counter of the flight, which lies above the landings' blocks. -/
theorem fltBase_outside (l off : Nat) : fltBase l + off < 0x400000 ∨ 0x500000 ≤ fltBase l + off := by
  unfold fltBase; omega

namespace LandCountsKept

variable {d e : Dev} {s t : State}

theorem lndMod (h : LandCountsKept d e) (l : Nat) (f : Landing → Landing) : LandCountsKept d (lndMod l f e) :=
  h.same rfl rfl

theorem landWrite (h : LandCountsKept d s.dev) (l pa va : Nat) (bytes : List (Option Byte)) :
    LandCountsKept d (landWrite l pa va bytes s).dev :=
  (h.writeBytes pa bytes false _).lsWrote l _ va bytes

theorem applyAct_mmac (h : LandCountsKept d s.dev) {l n : Nat} {o : MOps}
    (ht : applyAct l n (.mmac o) s = .ok t) : LandCountsKept d t.dev := by
  unfold Machine.applyAct at ht
  dsimp only at ht
  obtain rfl := Except.ok.inj ht
  refine lndMod (lndMod (cntAdd (cntAdd (cntIf ?_ ?_ _) ?_ _) ?_ _) l _) l _
  · exact h.cntInc (fltBase_outside l 0)
  all_goals exact fltBase_outside l _

theorem applyAct_mstore (h : LandCountsKept d s.dev) {l n a sat va : Nat} {soc : Bool} {rec : W64}
    (ht : applyAct l n (.mstore soc a sat rec va) s = .ok t) : LandCountsKept d t.dev := by
  have hc (spec : Nat) : LandCountsKept d (Machine.cntAdd (fltBase l + 0x48) spec (Machine.cntAdd (fltBase l + 0x40) sat
      (Machine.cntIf soc (fltBase l + 0x20) (Machine.cntInc (fltBase l + 0x18) s.dev)))) :=
    (((h.cntInc (fltBase_outside l _)).cntIf (fltBase_outside l _) _).cntAdd (fltBase_outside l _) _).cntAdd
      (fltBase_outside l _) _
  unfold Machine.applyAct at ht
  dsimp only at ht
  obtain rfl := Except.ok.inj ht
  refine lndMod ?_ l _
  dsimp only
  split
  · split
    · refine lsPost ?_ _
      exact (hc _).same rfl rfl
    · exact hc _
  · exact hc _

theorem applyAct (h : LandCountsKept d s.dev) {l n : Nat} {a : Act} (ht : applyAct l n a s = .ok t) :
    LandCountsKept d t.dev := by
  cases a with
  | setS | setP | setV | divide | sfuBusy | mzero | mts | exit => obtain rfl := Except.ok.inj ht; exact h.same rfl rfl
  | ld sd n pa va w =>
    unfold Machine.applyAct at ht
    dsimp only at ht
    split at ht
    · cases ht
    · obtain rfl := Except.ok.inj ht
      exact (h.touch pa).same rfl rfl
  | st pa va b => obtain rfl := Except.ok.inj ht; exact h.landWrite l pa va _
  | vld vd pa va mask zero =>
    unfold Machine.applyAct at ht
    dsimp only at ht
    split at ht
    · cases ht
    · obtain rfl := Except.ok.inj ht
      refine lndMod (lndMod ?_ l _) l _
      split
      · exact h
      · exact h.touch pa
  | vst pa va b en => obtain rfl := Except.ok.inj ht; exact h.landWrite l pa va _
  | gather vd at_ zero lat =>
    unfold Machine.applyAct at ht
    dsimp only at ht
    split at ht
    · cases ht
    · obtain rfl := Except.ok.inj ht
      exact h.same rfl rfl
  | scatter at_ vals =>
    obtain rfl := Except.ok.inj ht
    refine foldl_keeps (P := fun s : State => LandCountsKept d s.dev) (fun b p hb => ?_) _ s h
    split
    · exact hb.landWrite l _ _ _
    · exact hb
  | mmac o => exact h.applyAct_mmac ht
  | mload => obtain rfl := Except.ok.inj ht; exact (h.cntInc (fltBase_outside l 0x10)).same rfl rfl
  | mstore soc a sat rec va => exact h.applyAct_mstore ht
  | xctr c v => obtain rfl := Except.ok.inj ht; exact h.ctrSet c _

theorem applyActs {l n : Nat} : ∀ (as : List Act) {s : State}, LandCountsKept d s.dev →
    applyActs l n as s = .ok t → LandCountsKept d t.dev
  | [], _, h, ht => by obtain rfl := Except.ok.inj ht; exact h
  | a :: as, s, h, ht => by
    unfold Machine.applyActs at ht
    split at ht
    · cases ht
    · next hs => exact applyActs as (h.applyAct hs) ht

theorem windowCells (h : LandCountsKept d e) (l id : Nat) (op : AsyncOp) :
    LandCountsKept d (windowCells l id op e).2 := by
  have hsend {α : Type} (f : α → Cell) (o : CellOwner) (g : α → AnsPlace) (sp : List α) :
      LandCountsKept d (sp.foldl (fun d p => Machine.sendCell (f p) o (g p) d) e) :=
    foldl_keeps (P := LandCountsKept d) (fun _ p hb => hb.sendCell (f p) o (g p)) sp e h
  unfold Machine.windowCells
  dsimp only
  split
  case h_5 => exact h
  all_goals
    split
    · exact h
    · exact hsend _ _ _ _

theorem queueJob (h : LandCountsKept d e) (l id : Nat) (op : AsyncOp) : LandCountsKept d (queueJob l id op e) := by
  unfold Machine.queueJob
  dsimp only
  split <;> exact h.same rfl rfl

theorem queueDesc (h : LandCountsKept d e) (l id : Nat) (o : StartOp) : LandCountsKept d (queueDesc l id o e) := by
  unfold Machine.queueDesc
  dsimp only
  split
  · exact h.postDesc _
  · exact h.postDesc _
  · exact h

theorem startAsync (h : LandCountsKept d s.dev) (l : Nat) (o : StartOp) :
    LandCountsKept d (startAsync l o s).dev :=
  ((windowCells (h.lndMod l _) l _ o.op).lndMod l _ |>.queueJob l _ o.op).queueDesc l _ o

theorem runSlots {l n : Nat} : ∀ (ps : List (Nat × Plan)) {s : State}, LandCountsKept d s.dev →
    runSlots l n ps s = .ok t → LandCountsKept d t.dev
  | [], _, h, ht => by obtain rfl := Except.ok.inj ht; exact h
  | (i, p) :: ps, s, h, ht => by
    unfold Machine.runSlots at ht
    split at ht
    · cases ht
    · next hs =>
      have h1 := applyActs _ h hs
      refine runSlots ps ?_ ht
      split
      · exact h1.startAsync l _
      · exact h1

end LandCountsKept

end Sys2Proof.Machine
end

section
/-! A landing that does not run: faults, machine checks, the watchdog and the core reset it asks for take a landing out
of running, and none of them takes one back (R103 to R106, R421, R460). -/

namespace Sys2Proof.Machine

/-- The landing runs: it is running or in a wait. -/
def LandingRuns (d : Dev) (l : Nat) : Prop := (lndGet d l).phase = .running ∨ (lndGet d l).phase = .waiting

theorem landingRuns_congr {d e : Dev} {l : Nat} (h : (lndGet e l).phase = (lndGet d l).phase) :
    LandingRuns e l ↔ LandingRuns d l := by simp [LandingRuns, h]

theorem not_landingRuns_of_halted {d : Dev} {l : Nat} (h : (lndGet d l).phase = .halted) : ¬ LandingRuns d l := by
  simp [LandingRuns, h]

theorem not_landingRuns_of_idle {d : Dev} {l : Nat} (h : (lndGet d l).phase = .idle) : ¬ LandingRuns d l := by
  simp [LandingRuns, h]

/-! ### Faults and hardware errors -/

theorem abortKernelOf_lnd_self (l cause : Nat) (d : Dev) : lndGet (abortKernelOf l cause d) l = lndGet d l := by
  unfold abortKernelOf
  dsimp only
  split
  · rfl
  · refine (foldl_eq (g := fun d => lndGet d l) (fun b m => ?_) _ _).trans (lndGet_congr (ringPut_lnd _ _ _ _) l)
    split
    · rfl
    · next hm => rw [lndGet_lndMod, if_neg (Ne.symm hm)]

theorem raiseFault_phase (l slot cause addr : Nat) (d : Dev) :
    (lndGet (raiseFault l slot cause addr d) l).phase = .halted := by
  unfold raiseFault
  rw [abortKernelOf_lnd_self, lndGet_lndPut_same]
  rfl

theorem machineCheck_phase (l cause : Nat) (d : Dev) : (lndGet (machineCheck l cause d) l).phase = .halted := by
  unfold machineCheck
  dsimp only
  split
  · rw [lndGet_congr ((emit_lnd _ _ _ _).trans (setDegraded_lnd _ _ _))]
    exact raiseFault_phase l 7 cause 0 _
  · exact raiseFault_phase l 7 cause 0 _

theorem raiseWatchdog_phase (l : Nat) (d : Dev) : (lndGet (raiseWatchdog l d) l).phase = .halted := by
  have h (d : Dev) : (lndGet (emit 0x6001 l 0 (raiseFault l 7 0x0C 0 d)) l).phase = .halted := by
    rw [lndGet_congr (emit_lnd _ _ _ _)]
    exact raiseFault_phase l 7 0x0C 0 d
  unfold raiseWatchdog
  dsimp only
  split <;> exact h _

theorem faultCycle_phase (l slot cause addr : Nat) (s : State) :
    (lndGet (faultCycle l slot cause addr s).dev l).phase = .halted := by
  unfold faultCycle
  rw [onPipe_dev, lndGet_lndMod_same]
  exact raiseFault_phase l slot cause addr s.dev

/-! ### Withdraw and the two resets that a hang can lead to -/

theorem landingRuns_of_lndMod_stopLanding {d : Dev} {l m : Nat} (h : LandingRuns (lndMod m stopLanding d) l) :
    LandingRuns d l := by
  have hstop (x : Landing) : ¬((stopLanding x).phase = .running ∨ (stopLanding x).phase = .waiting) := by
    unfold stopLanding
    split
    · dsimp only; split <;> simp
    · assumption
  unfold LandingRuns at *
  rw [lndGet_lndMod] at h
  split at h
  · exact absurd h (hstop _)
  · exact h

theorem not_landingRuns_forceRuns {p : Nat → Bool} {st : Nat} {d : Dev} {l : Nat} (hd : ¬ LandingRuns d l) :
    ¬ LandingRuns (forceRuns p st d) l := by
  refine foldl_keeps (P := fun d => ¬ LandingRuns d l) (fun b nr hb => ?_) _ d hd
  dsimp only
  split
  · exact hb
  · exact foldl_keeps (P := fun d => ¬ LandingRuns d l)
      (fun _ m hm => mt landingRuns_of_lndMod_stopLanding hm) _ _ hb

theorem cellsLeave_lnd (p : Nat) : ∀ (q : List (Nat × Cell)) (d : Dev), (cellsLeave p q d).2.lnd = d.lnd
  | [], _ => rfl
  | e :: t, d => by
    have hcell : (cellLeaves p e d).2.lnd = d.lnd := by
      unfold cellLeaves
      dsimp only
      repeat' split
      all_goals simp [timeReqLeaves, tpPut]
    exact (cellsLeave_lnd p t _).trans hcell

theorem mirrorCells_lnd (p : Nat) (q : BitVec 16) (cells : List Cell) (d : Dev) :
    (mirrorCells p q cells d).lnd = d.lnd := by
  unfold mirrorCells
  dsimp only
  repeat' split
  all_goals simp

theorem sendLocal_lnd (p : Nat) (c : Cell) (d : Dev) : (sendLocal p c d).lnd = d.lnd := by
  unfold sendLocal
  dsimp only
  repeat' split
  · rfl
  · unfold sendNew
    simp only [cntInc_lnd, portMod_lnd, mirrorCells_lnd, cellsLeave_lnd]
  · rfl

theorem sendDepart_lnd (d : Dev) : (sendDepart d).lnd = d.lnd := by
  refine foldl_eq (g := Dev.lnd) (fun b p => ?_) _ d
  split
  · exact sendLocal_lnd p _ b
  · rfl

theorem enterService_lnd (s : State) : (enterService s).dev.lnd = [] := by
  have hports (d : Dev) : (resetPorts d).lnd = d.lnd :=
    foldl_eq (g := Dev.lnd) (fun b p => portMod_lnd p _ b) _ { d with ports := _ }
  have hphase (d : Dev) : (recoverySet d).lnd = d.lnd := by
    unfold recoverySet setPhase
    split <;> simp
  have hstop (d : Dev) : (stopBlocks d).lnd = [] := by
    unfold stopBlocks
    rw [hports]
    rfl
  unfold enterService
  dsimp only
  rw [setState_lnd, hphase]
  exact hstop (coldAll s).dev

theorem not_landingRuns_withdrawThen {s : State} {l : Nat} (h : ¬ LandingRuns s.dev l) :
    ¬ LandingRuns (withdrawThen .outOfService s).dev l := by
  unfold withdrawThen
  split
  · unfold withdrawBegin
    dsimp only
    rw [landingRuns_congr (congrArg Landing.phase (lndGet_congr (sendDepart_lnd _) l))]
    exact not_landingRuns_forceRuns h
  · refine not_landingRuns_of_idle ?_
    unfold afterWithdraw outOfService
    rw [lndGet, enterService_lnd]
    rfl

theorem resetLandings_phase {l : Nat} (hl : l < 104) (d : Dev) : (lndGet (resetLandings d) l).phase = .idle := by
  obtain ⟨before, after, hrange⟩ := List.append_of_mem (List.mem_range.mpr hl)
  unfold resetLandings
  rw [hrange, List.foldl_append, List.foldl_cons]
  refine foldl_keeps (P := fun d => (lndGet d l).phase = .idle) (fun b m hb => ?_) after _ ?_
  · rw [lndGet_lndMod]
    split
    · rfl
    · exact hb
  · rw [lndGet_lndMod_same]
    rfl

theorem coreResetNow_phase {l : Nat} (hl : l < 104) (bit : Nat) (s : State) :
    (lndGet (coreResetNow bit s).dev l).phase = .idle := by
  unfold coreResetNow
  dsimp only
  generalize (coldAll _).dev = d
  have hreset := resetLandings_phase hl d
  generalize resetLandings d = e at hreset ⊢
  exact hreset

/-- The core reset that a watchdog asks for takes no landing back into running (R106, R460). -/
theorem not_landingRuns_afterHang {s : State} {l : Nat} (hl : l < 104) (hs : ¬ LandingRuns s.dev l) :
    ¬ LandingRuns (afterHang s).dev l := by
  unfold afterHang
  dsimp only
  repeat' split
  · exact hs
  · exact hs
  · exact hs
  · unfold coreReset
    dsimp only
    split
    · exact not_landingRuns_withdrawThen hs
    · exact not_landingRuns_of_idle (coreResetNow_phase hl 6 _)

end Sys2Proof.Machine
end

section
/-! The sum of R88: each landing cycle that leaves the landing running counts one issue or one stall under one cause. -/

namespace Sys2Proof.Machine

/-- LND_ISSUED_CNT and the six stall counters (R88), as offsets in the landing's block. -/
def causeOffs : List Nat := [0x108, 0x138, 0x130, 0x120, 0x118, 0x110, 0x128]

/-- From `d` to `e` the landing's counters at `L` grow by one count each, and the others among LND_CYCLE_CNT and those of
`causeOffs` keep their values. -/
def CycleCounts (l : Nat) (L : List Nat) (d e : Dev) : Prop :=
  e.rst = d.rst ∧ ∀ k ∈ 0x100 :: causeOffs, cntGet e (lndBase l + k) =
    if k ∈ L then bumped (cntGet d (lndBase l + k)) else cntGet d (lndBase l + k)

/-- If the landing still runs in `e`, then from `d` to `e` one issue or one stall was counted, and no landing cycle. -/
def CauseCounted (l : Nat) (d e : Dev) : Prop := LandingRuns e l → ∃ o ∈ causeOffs, CycleCounts l [o] d e

section

variable {l : Nat} {d e f : Dev} {L M : List Nat}

theorem LandCountsKept.cycleCounts (h : LandCountsKept d e) (hl : l < 104) : CycleCounts l [] d e := by
  refine ⟨h.1, fun k hk => ?_⟩
  have hoff : k < 0x1000 := (by decide : ∀ k ∈ 0x100 :: causeOffs, k < 0x1000) k hk
  rw [h.2 (lndBase l + k) (by unfold lndBase; omega) (by unfold lndBase; omega)]
  simp

theorem cycleCounts_same (hr : e.rst = d.rst) (hc : e.cnt = d.cnt) : CycleCounts l [] d e :=
  ⟨hr, fun k _ => by simp [cntGet_congr hc]⟩

theorem CycleCounts.trans (h1 : CycleCounts l L d e) (h2 : CycleCounts l M e f) (hd : ∀ k ∈ L, k ∉ M) :
    CycleCounts l (L ++ M) d f := by
  refine ⟨h2.1.trans h1.1, fun k hk => ?_⟩
  rw [h2.2 k hk, h1.2 k hk]
  by_cases hL : k ∈ L
  · simp [hL, hd k hL]
  · simp [hL]

theorem CycleCounts.kept (h1 : CycleCounts l L d e) (h2 : CycleCounts l [] e f) : CycleCounts l L d f := by
  simpa using h1.trans h2 (by simp)

theorem CycleCounts.after (h1 : CycleCounts l [] d e) (h2 : CycleCounts l L e f) : CycleCounts l L d f :=
  h1.trans h2 (by simp)

theorem cycleCounts_cntInc (l k : Nat) (d : Dev) : CycleCounts l [k] d (cntInc (lndBase l + k) d) := by
  refine ⟨rfl, fun j _ => ?_⟩
  by_cases hj : j = k
  · subst hj
    simp [cntGet_cntInc_same]
  · rw [cntGet_cntInc, if_neg (by omega)]
    simp [hj]

/-- A counter of the landing that R88 does not name. -/
theorem cycleCounts_cntIf_other (l : Nat) {k : Nat} (hk : k ∉ 0x100 :: causeOffs) (b : Bool) (d : Dev) :
    CycleCounts l [] d (cntIf b (lndBase l + k) d) := by
  cases b
  · exact cycleCounts_same rfl rfl
  · refine ⟨rfl, fun j hj => ?_⟩
    have hjk : j ≠ k := fun h => hk (h ▸ hj)
    rw [cntIf, if_pos rfl, cntGet_cntInc, if_neg (by omega)]
    simp

theorem CauseCounted.after (h1 : CycleCounts l [] d e) (h2 : CauseCounted l e f) : CauseCounted l d f := fun hr =>
  let ⟨o, ho, hc⟩ := h2 hr
  ⟨o, ho, h1.after hc⟩

theorem causeCounted_of_halted (h : (lndGet e l).phase = .halted) : CauseCounted l d e := fun hr =>
  absurd hr (not_landingRuns_of_halted h)

end

/-! ### The ways a cycle of a running landing ends -/

/-- A stall counts its cause; `s` differs from the state before the cycle in nothing that R88 names. -/
theorem stallCycle_causeCounted {l off : Nat} {d : Dev} {s : State} (hoff : off ∈ causeOffs) (run : Bool)
    (h : CycleCounts l [] d s.dev) : CauseCounted l d (stallCycle l off run s).dev := by
  have hcount := h.after (cycleCounts_cntInc l off s.dev)
  unfold stallCycle
  dsimp only
  generalize hs1 : onLnd l _ _ = s1
  have hkept : CycleCounts l [] (cntInc (lndBase l + off) s.dev) s1.dev := by
    rw [← hs1]
    exact cycleCounts_same rfl rfl
  split
  · exact causeCounted_of_halted (raiseWatchdog_phase l _)
  · exact fun _ => ⟨off, hoff, hcount.kept hkept⟩

theorem issueBundle_causeCounted {l : Nat} (hl : l < 104) (b : Bundle) (live : List (Nat × Plan)) (s : State) :
    CauseCounted l s.dev (issueBundle l b live s).dev := by
  have hxl := (LandCountsKept.refl s.dev).accountXl (lndGet s.dev l).kern.slot (live.flatMap (fun p => p.2.xl))
  unfold issueBundle
  dsimp only
  split
  · exact causeCounted_of_halted (faultCycle_phase _ _ _ _ _)
  · split
    · exact causeCounted_of_halted (faultCycle_phase _ _ _ _ _)
    · split
      · exact causeCounted_of_halted (faultCycle_phase _ _ _ _ _)
      · next s' hs' =>
        have hslots := (LandCountsKept.runSlots live hxl hs').cycleCounts hl
        have hissue := hslots.after (cycleCounts_cntInc l 0x108 s'.dev)
        have hmiss := hissue.kept (cycleCounts_cntIf_other l (k := 0x140) (by decide)
          (flowOf (lndGet s.dev l) b (pselOn (lndGet s.dev l).regs b.h.pselS)).miss _)
        exact fun _ => ⟨0x108, by decide, hmiss.kept (cycleCounts_same rfl rfl)⟩

/-- The causes of R88 in their order, an instruction parity error, or the issue. -/
theorem tryIssue_causeCounted {l : Nat} (hl : l < 104) (c : CycleIn) (b : Bundle) (s : State) :
    CauseCounted l s.dev (tryIssue l c b s).dev := by
  unfold tryIssue
  dsimp only
  generalize hthr : onDev (cntIf _ (fltBase l + 0x28)) s = s1
  have hkept : LandCountsKept s.dev s1.dev := by
    rw [← hthr]
    exact (LandCountsKept.refl s.dev).cntIf (fltBase_outside l 0x28) _
  refine CauseCounted.after (hkept.cycleCounts hl) ?_
  have hrefl : CycleCounts l [] s1.dev s1.dev := cycleCounts_same rfl rfl
  split
  · exact stallCycle_causeCounted (by decide) true hrefl
  split
  · exact stallCycle_causeCounted (by decide) true hrefl
  split
  · exact stallCycle_causeCounted (by decide) true hrefl
  split
  · exact stallCycle_causeCounted (by decide) true (cycleCounts_same rfl rfl)
  split
  · have hls := (LandCountsKept.refl s1.dev).cntIf (off := dbgBase + 0x150) (.inl (by decide)) (structHolds s1 l b).2
    exact stallCycle_causeCounted (by decide) true (hls.cycleCounts hl)
  split
  · split
    · exact causeCounted_of_halted (machineCheck_phase l 0x10 _)
    · have hparity := cycleCounts_cntIf_other l (k := 0x148) (by decide) true s1.dev
      exact stallCycle_causeCounted (by decide) true (hparity.kept (cycleCounts_same rfl rfl))
  · exact issueBundle_causeCounted hl b _ s1

theorem runCycle_causeCounted {l : Nat} (hl : l < 104) (c : CycleIn) (b : Bundle) (s : State) :
    CauseCounted l s.dev (runCycle l c b s).dev := by
  unfold runCycle
  dsimp only
  split
  · exact causeCounted_of_halted (raiseFault_phase l 7 0x0B 0 _)
  split
  · exact causeCounted_of_halted (machineCheck_phase l 0x12 _)
  split
  · exact stallCycle_causeCounted (by decide) true (cycleCounts_same rfl rfl)
  split
  · exact causeCounted_of_halted (machineCheck_phase l 0x11 _)
  split
  · exact causeCounted_of_halted (faultCycle_phase _ _ _ _ _)
  generalize hreach : (if waitExpired _ then _ else _ : State) = s1
  have hkept : CycleCounts l [] s.dev s1.dev := by
    rw [← hreach]
    split <;> exact cycleCounts_same rfl rfl
  refine CauseCounted.after hkept ?_
  split
  · exact stallCycle_causeCounted (by decide) false (cycleCounts_same rfl rfl)
  · exact tryIssue_causeCounted hl c b s1

/-! ### The whole cycle -/

theorem countOpen_counts (l m : Nat) (shut : Bool) (x : Landing) (s : State) :
    CycleCounts m [] s.dev (countOpen l shut x s).dev := by
  unfold countOpen
  split <;> exact cycleCounts_same rfl rfl

theorem landingRuns_countOpen {l : Nat} {shut : Bool} {x : Landing} {s : State}
    (h : LandingRuns (countOpen l shut x s).dev l) : LandingRuns s.dev l := by
  obtain ⟨_, _, heq⟩ := countOpen_lnd l shut x s
  exact (landingRuns_congr (by rw [heq])).mp h

theorem landingRuns_cntIf {l off : Nat} {p : Bool} {d : Dev} (h : LandingRuns (cntIf p off d) l) : LandingRuns d l :=
  (landingRuns_congr (congrArg Landing.phase (lndGet_congr (cntIf_lnd p off d) l))).mp h

/-- A landing cycle that leaves the landing running counts itself and one cause, or, while the landing is frozen or its
clock stands, nothing. -/
theorem issueCycle_counts {l : Nat} (hl : l < 104) (c : CycleIn) (b : Bundle) (s : State)
    (hr : LandingRuns (issueCycle l c b s).dev l) :
    CycleCounts l [] s.dev (issueCycle l c b s).dev ∨
      ∃ o ∈ causeOffs, CycleCounts l [0x100, o] s.dev (issueCycle l c b s).dev := by
  have hballast (p : Bool) (d : Dev) : CycleCounts l [] d (cntIf p (fltBase l + 0x50) d) :=
    ((LandCountsKept.refl d).cntIf (fltBase_outside l 0x50) p).cycleCounts hl
  unfold issueCycle at hr ⊢
  dsimp only at hr ⊢
  split at hr
  · next hrun =>
    rw [if_pos hrun]
    have hcycle : CycleCounts l [0x100] s.dev (onDev (cntInc (lndBase l + 0x100)) (imageGone l c s)).dev := by
      refine CycleCounts.after (cycleCounts_same ?_ ?_) (cycleCounts_cntInc l 0x100 _) <;>
        (unfold imageGone; split <;> rfl)
    have hup := landingRuns_countOpen (landingRuns_cntIf hr)
    obtain ⟨o, ho, hcause⟩ := runCycle_causeCounted hl c b _ hup
    have hne : ∀ k ∈ [0x100], k ∉ [o] := by
      have ho' := (by decide : ∀ o ∈ causeOffs, 0x100 ≠ o) o ho
      simpa using ho'
    exact .inr ⟨o, ho, ((hcycle.trans hcause hne).kept (countOpen_counts _ _ _ _ _)).kept (hballast _ _)⟩
  · next hrun =>
    rw [if_neg hrun]
    exact .inl (hballast _ _)

/-! ### The sum -/

theorem bumped_toNat {v : W64} (h : v ≠ BitVec.allOnes 64) : (bumped v).toNat = v.toNat + 1 := by
  have hv := v.isLt
  have h' : v.toNat ≠ 2 ^ 64 - 1 := fun e => h (BitVec.eq_of_toNat_eq (by simpa using e))
  have hone : (1 : W64).toNat = 1 := rfl
  rw [bumped, if_neg h, BitVec.toNat_add, hone, Nat.mod_eq_of_lt (by omega)]

/-- In a list without repetitions, a function that grows by one at one element has a sum that grows by one. -/
theorem sum_map_succ_at {L : List Nat} {f g : Nat → Nat} {a : Nat} (hL : L.Nodup) (ha : a ∈ L) (hg : g a = f a + 1)
    (hrest : ∀ k ∈ L, k ≠ a → g k = f k) : (L.map g).sum = (L.map f).sum + 1 := by
  have hmap : (L.erase a).map g = (L.erase a).map f :=
    List.map_congr_left fun k hk => hrest k (List.mem_of_mem_erase hk) (hL.mem_erase_iff.mp hk).1
  have hsum (f : Nat → Nat) : (L.map f).sum = f a + ((L.erase a).map f).sum := by
    simpa using ((List.perm_cons_erase ha).map f).sum_nat
  rw [hsum g, hsum f, hmap, hg]
  omega

/-- The issues and stalls of a landing together. -/
def causeTotal (l : Nat) (d : Dev) : Nat := (causeOffs.map (fun k => (cntGet d (lndBase l + k)).toNat)).sum

section

variable {l : Nat} {d e : Dev}

theorem CycleCounts.causeTotal_kept (h : CycleCounts l [] d e) :
    cntGet e (lndBase l + 0x100) = cntGet d (lndBase l + 0x100) ∧ causeTotal l e = causeTotal l d := by
  have hsame (k : Nat) (hk : k ∈ 0x100 :: causeOffs) : cntGet e (lndBase l + k) = cntGet d (lndBase l + k) := by
    simpa using h.2 k hk
  refine ⟨hsame 0x100 (by simp), congrArg List.sum (List.map_congr_left fun k hk => ?_)⟩
  rw [hsame k (List.mem_cons_of_mem _ hk)]

theorem CycleCounts.causeTotal_succ {o : Nat} (h : CycleCounts l [0x100, o] d e) (ho : o ∈ causeOffs)
    (hb : ∀ k ∈ 0x100 :: causeOffs, cntGet d (lndBase l + k) ≠ BitVec.allOnes 64) :
    (cntGet e (lndBase l + 0x100)).toNat = (cntGet d (lndBase l + 0x100)).toNat + 1 ∧
      causeTotal l e = causeTotal l d + 1 := by
  have hgrown (k : Nat) (hk : k ∈ 0x100 :: causeOffs) (hin : k ∈ [0x100, o]) :
      (cntGet e (lndBase l + k)).toNat = (cntGet d (lndBase l + k)).toNat + 1 := by
    rw [h.2 k hk, if_pos hin, bumped_toNat (hb k hk)]
  refine ⟨hgrown 0x100 (by simp) (by simp), sum_map_succ_at (by decide) ho
    (hgrown o (List.mem_cons_of_mem _ ho) (by simp)) fun k hk hko => ?_⟩
  have hcyc := (by decide : ∀ k ∈ causeOffs, k ≠ 0x100) k hk
  rw [h.2 k (List.mem_cons_of_mem _ hk), if_neg (by simp [hko, hcyc])]

end

end Sys2Proof.Machine

namespace Sys2Proof

open Machine

/-- Settles O12, by what a landing cycle counts: itself and one cause, or nothing at all; the other ways it can end,
a fault, a machine check and the watchdog with its core reset, leave the landing not running. -/
theorem cyclesAccounted : Obligations.CyclesAccounted := by
  intro l c s t up offs total hexec _ hup hhang hbound
  obtain rfl : afterHang (issueCycle l c (fetched s.dev l) s) = t := Host.Outcome.next.inj hexec
  have hruns : LandingRuns (issueCycle l c (fetched s.dev l) s).dev l :=
    Classical.byContradiction fun hs => not_landingRuns_afterHang l.isLt hs hup
  have hcounts := issueCycle_counts l.isLt c _ s hruns
  have hrst : (issueCycle l c (fetched s.dev l) s).dev.rst = s.dev.rst := by
    obtain h | ⟨_, _, h⟩ := hcounts <;> exact h.1
  have hsame : afterHang (issueCycle l c (fetched s.dev l) s) = issueCycle l c (fetched s.dev l) s := by
    simp [afterHang, hrst, hhang]
  have htotal (d : Dev) : total d = causeTotal l d := by
    simp only [total, offs, causeTotal, causeOffs, List.map_map]
    rfl
  have hfree (k : Nat) (hk : k ∈ 0x100 :: causeOffs) : cntGet s.dev (lndBase l + k) ≠ BitVec.allOnes 64 :=
    hbound _ (List.mem_map_of_mem (f := (lndBase l + ·)) hk)
  rw [hsame, htotal, htotal]
  obtain h | ⟨o, ho, h⟩ := hcounts
  · obtain ⟨hcyc, hsum⟩ := h.causeTotal_kept
    rw [hcyc, hsum]
  · obtain ⟨hcyc, hsum⟩ := h.causeTotal_succ ho hfree
    omega

end Sys2Proof
end
